-- ==== Sys2Proof/Word.lean ====
section
/-! DEFINITION. The word types of the block and the error-correction tier.
Spec: 00_scope.md R6 to R8, 10_state.md R22 and R33, 30_encoding.md R91 and R93. -/

namespace Sys2Proof

/-- An 8-bit word: a command word, a codeword, a decoded character. -/
abbrev Byte := BitVec 8

/-- One entry of the input buffer, `CP_W = 21` bits (R33). -/
abbrev CodePoint := BitVec 21

/-- A bit sequence (R7): the head is the first bit of the stream, `true` is 1. -/
abbrev Bits := List Bool

/-- The error-correction tier, in the order of R93. -/
inductive Tier where
  | L
  | M
  | Q
  | H
  deriving DecidableEq, Repr, Inhabited

/-- The four tiers, least redundancy first (R93). -/
def Tier.all : List Tier := [.L, .M, .Q, .H]

end Sys2Proof
end

