-- ==== Sys2Proof/Config.lean ====
section
/-! DEFINITION. What is fixed for the hardware: the constants of 00_scope.md R5, the OPEN parameters
with exactly the constraints R5, R42, R44, R151 and R155 allow a proof to assume, and the free values.

An OPEN parameter has no value here. `Config.raw` is an opaque constant, and `Config.params` is it
when it meets the constraints and the spec's table of defaults when it does not, so that
`Config.params` ranges over exactly the admissible configurations and a theorem about it holds for
every one of them (log entry 1). -/

namespace Sys2Proof

/-- `IN_DEPTH`, the entries of IN (R5, R33). -/
def inDepth : Nat := 255

/-- The entries of OUT (R35). -/
def outDepth : Nat := 255

/-- `TERM_MAX`, the most terminator bits (R5). -/
def termMax : Nat := 4

/-- `N_EC`, the redundancy bytes (R5). -/
def nEc : Nat := 7

/-- `K_MAX`, the most data bytes in one ECC command (R5, R160). -/
def kMax : Nat := 248

/-- `FILL0`, the first fill byte (R5, R141). -/
def fill0 : Byte := 0xEC

/-- `FILL1`, the second fill byte (R5, R141). -/
def fill1 : Byte := 0x11

/-- The versions, ascending (R5, R121). -/
def versions : List Nat := [1, 2, 3, 4, 5, 6, 7, 8]

/-- The four capacities of one version (R40). -/
structure CapRow where
  l : Nat
  m : Nat
  q : Nat
  h : Nat
  deriving DecidableEq, Repr, Inhabited

/-- The capacity of a row at a tier. -/
def CapRow.at (r : CapRow) : Tier → Nat
  | .L => r.l
  | .M => r.m
  | .Q => r.q
  | .H => r.h

/-- The OPEN parameters of R5 that are plain data (`PIX_INIT` is `Config.pixInit` below). -/
structure Params where
  /-- CAP: the row of version `v` is entry `v - 1` (R40). -/
  cap : List CapRow
  /-- ALIGN: the list of version `v` is entry `v - 1` (R43). -/
  align : List (List Int)
  /-- The byte-mode indicator (R131). -/
  modeByte : BitVec 4
  /-- The field polynomial (R151). -/
  gfPoly : BitVec 9
  /-- The generator polynomial, highest coefficient first (R155). -/
  rsGen : List Byte
  /-- The capacity of BS in bits (R34). -/
  bsMax : Nat
  /-- The bit of a dark module (R183). -/
  darkBit : Bool
  deriving DecidableEq, Repr, Inhabited

/-- `CAP[v][t]` (R40). -/
def Params.capOf (P : Params) (v : Nat) (t : Tier) : Nat :=
  ((P.cap[v - 1]?).map (fun r => r.at t)).getD 0

/-- `ALIGN[v]` (R43). -/
def Params.alignOf (P : Params) (v : Nat) : List Int :=
  (P.align[v - 1]?).getD []

/-- One step of long division over GF(2): `d`, shifted so that its top bit meets bit `k`, is taken
from `a` when bit `k` of `a` is set. `n` is the degree of `d`. -/
def gf2Reduce (d n : Nat) (a k : Nat) : Nat :=
  if a.testBit k && decide (n ≤ k) then a ^^^ (d <<< (k - n)) else a

/-- The remainder over GF(2) of a polynomial of degree at most 8 by `d` of degree `n`. -/
def gf2Mod (a d n : Nat) : Nat :=
  [8, 7, 6, 5, 4, 3, 2, 1, 0].foldl (gf2Reduce d n) a

/-- A polynomial of degree 8 over GF(2) is irreducible when no polynomial of degree 1 to 4 divides
it (R151). -/
def gfIrreducible (p : BitVec 9) : Bool :=
  p.getLsbD 8 &&
    [1, 2, 3, 4].all fun n =>
      (List.range (2 ^ n)).all fun low => gf2Mod p.toNat (2 ^ n + low) n != 0

/-- The constraints on CAP: R42 (a), (b), (c) and the pinned entries of R41. -/
def Params.capOk (P : Params) : Bool :=
  P.cap.length == 8 &&
  (versions.all fun v => versions.all fun w => Tier.all.all fun t =>
    decide (w ≤ v) || decide (P.capOf v t < P.capOf w t)) &&
  (versions.all fun v => decide (P.capOf v .M ≤ P.capOf v .L) &&
    decide (P.capOf v .Q ≤ P.capOf v .M) && decide (P.capOf v .H ≤ P.capOf v .Q)) &&
  (versions.all fun v => Tier.all.all fun t => decide (P.capOf v t ≤ 65535)) &&
  P.capOf 1 .M == 128 && P.capOf 8 .H == 640

/-- The constraints on ALIGN: no repeats (R43) and the pinned entries of R44. -/
def Params.alignOk (P : Params) : Bool :=
  P.align.length == 8 && (versions.all fun v => decide (P.alignOf v).Nodup) &&
  P.alignOf 1 == [] && P.alignOf 7 == [6, 22, 38]

/-- The constraints on `RS_GEN`: eight coefficients, the first equal to 1 (R155). -/
def Params.rsGenOk (P : Params) : Bool :=
  P.rsGen.length == 8 && P.rsGen.head? == some 1

/-- The constraint on `BS_MAX` (R5). -/
def Params.bsMaxOk (P : Params) : Bool :=
  decide (2052 ≤ P.bsMax) && decide (P.bsMax ≤ 65535)

/-- A configuration of this block: every constraint the spec states, and no other. -/
def Params.valid (P : Params) : Bool :=
  P.capOk && P.alignOk && gfIrreducible P.gfPoly && P.rsGenOk && P.bsMaxOk

/-- The named premise `CAP_BYTE_ALIGNED` of R42: never assumed, only taken as a hypothesis. -/
def Params.capByteAligned (P : Params) : Prop :=
  ∀ v ∈ versions, ∀ t, P.capOf v t % 8 = 0

/-- The named premise `ALIGN_IN_RANGE` of R44: never assumed, only taken as a hypothesis. -/
def Params.alignInRange (P : Params) : Prop :=
  ∀ v ∈ versions, ∀ c ∈ P.alignOf v, 2 ≤ c ∧ c ≤ (21 + ((v : Int) - 1) * 4) - 3

/-- The defaults of R5 with the tables of 93_implementation_defined.md G2 and G3: the configuration
of the worked vectors of 95_test_vectors.md, used by the tests. -/
def Params.specDefault : Params where
  cap := [⟨152, 128, 104, 72⟩, ⟨272, 224, 176, 128⟩, ⟨440, 352, 272, 208⟩, ⟨640, 512, 384, 288⟩,
    ⟨864, 688, 496, 368⟩, ⟨1088, 864, 608, 480⟩, ⟨1248, 992, 704, 528⟩, ⟨1552, 1232, 880, 640⟩]
  align := [[], [6, 18], [6, 22], [6, 26], [6, 30], [6, 34], [6, 22, 38], [6, 24, 42]]
  modeByte := 0b0100
  gfPoly := 0x11D
  rsGen := [1, 127, 122, 154, 164, 11, 68, 117]
  bsMax := 4096
  darkBit := true

/-- The unknown constants of the implementation: no body, so nothing can be proved of them. -/
opaque Config.raw : Params

/-- The configuration of the block: any admissible one (log entry 1). -/
def Config.params : Params :=
  if Config.raw.valid then Config.raw else Params.specDefault

/-- `PIX_INIT(w, h)` at pixel `(x, y)`: nothing may be assumed of it (R213). -/
opaque Config.pixInit (w h x y : Nat) : Bool

/-- The free value an unwritten entry of IN holds: draw number, index (93 U5, U6). -/
opaque Config.freeIn : Nat → Nat → CodePoint

/-- The free value an unwritten entry of BS holds: draw number, index (93 U5, U6, U7). -/
opaque Config.freeBs : Nat → Nat → Bool

/-- The free value an unwritten entry of OUT holds: draw number, index (93 U5, U6). -/
opaque Config.freeOut : Nat → Nat → Byte

/-- The free value of a pixel of a grid whose contents the block does not know: draw number, pixel
key (93 U4, U12). -/
opaque Config.freePix : Nat → Nat → Bool

end Sys2Proof
end

