-- ==== Sys2Proof/Machine/HostAccess.lean ====
section
/-! DEFINITION. What the outside world can do to the block, as syntax: the host's typed accesses of
20_memory.md R70 and R74, the host's and the platform's events in order, and what may happen while a
command runs (70_reset_and_hazards.md R280, R288, R290). The directives of 30_encoding.md R99 are
lists of these. -/

namespace Sys2Proof.Machine

/-- One typed transaction of the host (R70). A code point is presented at its 21 bits, a bit as a
bit, a register value as a number that must fit the register (R22). -/
inductive HostAccess where
  | wrReg (n v : Nat)
  | rdReg (n : Nat)
  | wrIn (i : Nat) (c : CodePoint)
  | rdIn (i : Nat)
  | wrBs (i : Nat) (b : Bool)
  | rdBs (i : Nat)
  | wrOut (i : Nat) (c : Byte)
  | rdOut (i : Nat)
  | setPix (x y : Nat) (b : Bool)
  | getPix (x y : Nat)
  /-- The host puts a grid of its own in the place of the attached one (R74, "Attach a grid"). -/
  | newGrid
  deriving DecidableEq, Repr, Inhabited

/-- Something that happens while BUSY = 1. -/
inductive BusyEvent where
  | access (a : HostAccess)
  | hardReset
  deriving DecidableEq, Repr, Inhabited

/-- Something that happens while BUSY = 0. `issue` is a CMD write together with what the outside
does before the block has executed the command; `access (.wrReg 0 w)` is a CMD write with nothing. -/
inductive HostEvent where
  | access (a : HostAccess)
  | issue (w : Byte) (meanwhile : List BusyEvent)
  | hardReset
  deriving DecidableEq, Repr, Inhabited

/-- The same event when the block has become idle before it. -/
def BusyEvent.whenIdle : BusyEvent → HostEvent
  | .access a => .access a
  | .hardReset => .hardReset

end Sys2Proof.Machine
end

