-- ==== Sys2Proof/Machine/State.lean ====
section
/-! DEFINITION. The state of the block as plain data: the fifteen registers of 10_state.md R21, the
buffers IN, BS and OUT, the pixel grid PIX, and the model's own bookkeeping (the host's pending
accesses and the counter of the free values); the block's twelve fault causes (60_exceptions.md
R240); the reasons the model itself can stop; and the state after the hardware reset (R49, R280). -/

namespace Sys2Proof.Machine

/-- A buffer: its written entries, by rising index, and the number of the draw that its unwritten
entries read as (log entry 2). The entry width is `α`. -/
structure Buf (α : Type) where
  epoch : Nat
  cells : List (Nat × α)
  deriving DecidableEq, Repr

/-- The pixel grid (10_state.md R46). `cells` are the pixels written since the grid came to be, by
rising key; the others hold `PIX_INIT(w, h)` when `init = some (w, h)` and the host's unknown
contents, draw `epoch`, when `init = none` (log entries 3 and 4). Its size is GRID_W by GRID_H. -/
structure Grid where
  epoch : Nat
  init : Option (Nat × Nat)
  cells : List (Nat × Bool)
  deriving DecidableEq, Repr

/-- The faults of the block with their information values (60_exceptions.md R240). Raising one is a
next state of the model: the command ends and the fault is reported (R255). -/
inductive Cause where
  /-- SEL, SYM: the bit length. -/
  | capacityExceeded (n : Nat)
  /-- ENC, SYM: LEN. -/
  | lengthOverflow (n : Nat)
  /-- ENC, SYM: the lowest index of a code point above 255. -/
  | unsupportedCharacter (i : Nat)
  /-- DEC: the 4-bit value read. -/
  | formatMismatch (m : Nat)
  /-- DRF, DRA, DRT, ASM: no information. -/
  | gridBoundsViolation
  /-- Any CMD write: the word. -/
  | illegalCommand (w : Nat)
  /-- DRF, DRA, DRT, ASM: the register number, 7 or 9. -/
  | badParameter (r : Nat)
  /-- ECC: BSLEN. -/
  | streamMisaligned (n : Nat)
  /-- DEC: BSLEN. -/
  | streamTruncated (n : Nat)
  /-- FIN: BSLEN. -/
  | targetTooSmall (n : Nat)
  /-- FIN, ECC, DEC, SYM: the length that does not fit. -/
  | bufferOverflow (n : Nat)
  /-- ECC, SYM: the number of data bytes. -/
  | blockTooLong (k : Nat)
  deriving DecidableEq, Repr

/-- The state of the block and of what surrounds it. -/
structure State where
  /-- CMD, register 0 (R23). -/
  cmd : BitVec 8
  /-- STATUS, register 1 (R24). -/
  status : BitVec 8
  /-- ERRCODE, register 2 (R25). -/
  errcode : BitVec 8
  /-- ERRINFO, register 3 (R26). -/
  errinfo : BitVec 32
  /-- LEN, register 4 (R29). -/
  len : BitVec 16
  /-- BSLEN, register 5 (R30). -/
  bslen : BitVec 16
  /-- TARGET, register 6 (R31). -/
  target : BitVec 16
  /-- VERSION, register 7 (R32). -/
  version : BitVec 8
  /-- OUTLEN, register 8 (R35). -/
  outlen : BitVec 8
  /-- SCALE, register 9 (R36). -/
  scale : BitVec 8
  /-- BORDER, register 10 (R37). -/
  border : BitVec 8
  /-- MSIZE, register 11 (R38). -/
  msize : BitVec 8
  /-- DIM, register 12 (R38). -/
  dim : BitVec 32
  /-- GRID_W, register 13 (R39). -/
  gridW : BitVec 32
  /-- GRID_H, register 14 (R39). -/
  gridH : BitVec 32
  /-- IN (R33). -/
  inBuf : Buf CodePoint
  /-- BS (R34). -/
  bs : Buf Bool
  /-- OUT (R35). -/
  out : Buf Byte
  /-- PIX (R46). -/
  pix : Grid
  /-- The model's own: the number of the next draw of free values (log entry 5). -/
  free : Nat
  /-- The model's own: what the last host read returned, zero-extended (R9; log entry 5). -/
  readData : BitVec 32
  /-- The model's own: what the outside does while BUSY = 0, oldest first (log entry 6). -/
  host : List HostEvent
  /-- The model's own: what the outside does while BUSY = 1, oldest first (log entry 8). -/
  meanwhile : List BusyEvent
  deriving DecidableEq, Repr

/-- Why the machine stops with a fault. No command raises one: only the host can. -/
inductive Fault where
  /-- Raised by a host access to an index outside IN, BS or OUT, or to a pixel outside GRID_W by
  GRID_H: the spec says no such entry exists (R60, R71). SAFE: the model stops (log entry 10). -/
  | noSuchEntry (a : HostAccess)
  deriving DecidableEq, Repr

/-- Why the model gives a step no meaning. No command raises one. -/
inductive Refusal where
  /-- Raised by nothing: every arm of `exec` has its meaning. The host's interface asks for it. SAFE. -/
  | notModelled (mnemonic : String)
  /-- Raised by a host access other than a STATUS read while BUSY = 1: outside the spec, to be refused
  (70 R290, 93 U1). SAFE: no transition, nothing can be proved of it (log entry 9). -/
  | hostAccessWhileBusy (a : HostAccess)
  /-- Raised by a host register write whose value is wider than the register: it cannot be presented
  at the typed interface (10_state.md R22). SAFE (log entry 11). -/
  | valueTooWide (a : HostAccess)
  deriving DecidableEq, Repr

/-- The state right after the hardware reset (R49, R280): all fifteen registers 0, IN, BS and OUT
unspecified (nothing listed, so that each entry reads as a free value), PIX the host's. The model's
own fields are empty or 0, `free` is the first draw not yet used (log entry 5). -/
def State.reset : State where
  cmd := 0
  status := 0
  errcode := 0
  errinfo := 0
  len := 0
  bslen := 0
  target := 0
  version := 0
  outlen := 0
  scale := 0
  border := 0
  msize := 0
  dim := 0
  gridW := 0
  gridH := 0
  inBuf := ⟨0, []⟩
  bs := ⟨0, []⟩
  out := ⟨0, []⟩
  pix := ⟨0, none, []⟩
  free := 1
  readData := 0
  host := []
  meanwhile := []

end Sys2Proof.Machine
end

