-- ==== Sys2Proof/Machine/Flags.lean ====
section
/-! DEFINITION. The only flags of the block, STATUS.BUSY, STATUS.DONE and STATUS.ERR (10_state.md
R24, R27): reading them, and the three STATUS words a command passes through (R23, 60_exceptions.md
R255, R256). There are no arithmetic flags. -/

namespace Sys2Proof.Machine

/-- STATUS.BUSY, bit 0 (R24). -/
def State.busy (s : State) : Bool := s.status.getLsbD 0

/-- STATUS.DONE, bit 1 (R24). -/
def State.done (s : State) : Bool := s.status.getLsbD 1

/-- STATUS.ERR, bit 2 (R24). -/
def State.err (s : State) : Bool := s.status.getLsbD 2

/-- The STATUS word with the three flags, bits 7:3 reading 0 (R24). -/
def statusWord (busy done err : Bool) : BitVec 8 :=
  (0 : BitVec 5) ++ BitVec.ofBool err ++ BitVec.ofBool done ++ BitVec.ofBool busy

/-- STATUS from the CMD write until the command has been executed (R23). -/
def statusBusy : BitVec 8 := statusWord true false false

/-- STATUS after a command that completed without a fault (R256). -/
def statusDone : BitVec 8 := statusWord false true false

/-- STATUS after a command that ended in a fault (R255). -/
def statusFault : BitVec 8 := statusWord false true true

/-- The legal values of STATUS (R24). -/
def legalStatus (w : BitVec 8) : Bool :=
  w == 0b000 || w == 0b001 || w == 0b010 || w == 0b110

end Sys2Proof.Machine
end

