-- ==== Sys2Proof/Machine/Ops.lean ====
section
/-! DEFINITION. The named operations over the state: the cells of a buffer in canonical form; reading
and writing IN, BS, OUT and PIX (20_memory.md R60, R62, R66); bits and bytes of a stream (00_scope.md
R8, 20_memory.md R63); reporting a fault and completing without one (60_exceptions.md R255, R256);
issuing a command (10_state.md R23). -/

namespace Sys2Proof.Machine

/-! ### Cells in canonical form -/

/-- The value listed at index `i`, if one is. -/
def cellsFind {α : Type} : List (Nat × α) → Nat → Option α
  | [], _ => none
  | (k, v) :: rest, i => if i = k then some v else cellsFind rest i

/-- Write one entry, keeping the indices strictly rising. -/
def cellsSet {α : Type} : List (Nat × α) → Nat → α → List (Nat × α)
  | [], i, v => [(i, v)]
  | (k, w) :: rest, i, v =>
    if i < k then (i, v) :: (k, w) :: rest
    else if i = k then (i, v) :: rest
    else (k, w) :: cellsSet rest i v

/-- The cells of a run of values from index `i` on. -/
def cellsFrom {α : Type} (i : Nat) : List α → List (Nat × α)
  | [] => []
  | v :: vs => (i, v) :: cellsFrom (i + 1) vs

/-- Write a run of values from index `i` on: the entries of the run are replaced, all others kept. -/
def cellsWriteRun {α : Type} (c : List (Nat × α)) (i : Nat) (vs : List α) : List (Nat × α) :=
  c.filter (fun e => decide (e.1 < i)) ++ cellsFrom i vs ++
    c.filter (fun e => decide (i + vs.length ≤ e.1))

/-- The canonical form of a buffer's cells: indices strictly rising and below the buffer's size. What
an unlisted entry reads as is a free value, which no listed entry can be compared with, so nothing
else is asked (log entry 2). -/
abbrev cellsWf {α : Type} (bound : Nat) (c : List (Nat × α)) : Prop :=
  c.Pairwise (fun a b => a.1 < b.1) ∧ ∀ e ∈ c, e.1 < bound

/-! ### Buffers -/

/-- Entry `i` of a buffer: what was written there, or the free value of the buffer's draw. -/
def Buf.read {α : Type} (freeVal : Nat → Nat → α) (b : Buf α) (i : Nat) : α :=
  (cellsFind b.cells i).getD (freeVal b.epoch i)

/-- Write entry `i`. -/
def Buf.write {α : Type} (b : Buf α) (i : Nat) (v : α) : Buf α :=
  { b with cells := cellsSet b.cells i v }

/-- Write a run of entries from index `i` on. -/
def Buf.writeRun {α : Type} (b : Buf α) (i : Nat) (vs : List α) : Buf α :=
  { b with cells := cellsWriteRun b.cells i vs }

/-- A buffer that holds `vs` from index 0 on and is unspecified beyond: the old entries are gone, and
the unwritten ones read as draw `draw`. -/
def Buf.replace {α : Type} (draw : Nat) (vs : List α) : Buf α :=
  ⟨draw, cellsFrom 0 vs⟩

/-- `IN[i]` (R33). -/
def State.readIn (s : State) (i : Nat) : CodePoint := s.inBuf.read Config.freeIn i

/-- `BS[i]` (R34). -/
def State.readBs (s : State) (i : Nat) : Bool := s.bs.read Config.freeBs i

/-- `OUT[i]` (R35). -/
def State.readOut (s : State) (i : Nat) : Byte := s.out.read Config.freeOut i

/-- `BS[i : i + n]` as a bit sequence (R7). -/
def State.slice (s : State) (i n : Nat) : Bits :=
  (List.range' i n).map s.readBs

/-- `BS <- w` for a stream that replaces the old one (R9): BSLEN becomes its length, the bits from
there on are unspecified (R34, 93 U7). -/
def State.replaceStream (w : Bits) (s : State) : State :=
  { s with
    bs := Buf.replace s.free w
    bslen := BitVec.ofNat 16 w.length
    free := s.free + 1 }

/-- `BS <- w` for a stream that extends the old one (R9): `BS[0 : len(w)]` is written, BSLEN becomes
its length, the bits from there on are untouched (20_memory.md R69). -/
def State.writeStream (w : Bits) (s : State) : State :=
  { s with
    bs := s.bs.writeRun 0 w
    bslen := BitVec.ofNat 16 w.length }

/-- `OUT[0 : N] <- c`, `OUTLEN <- N` (R35, R172); the entries from `N` on are unspecified (R35). -/
def State.replaceOut (c : List Byte) (s : State) : State :=
  { s with
    out := Buf.replace s.free c
    outlen := BitVec.ofNat 8 c.length
    free := s.free + 1 }

/-- The contents of IN, BS and OUT become unspecified (47 R229, 70 R280). -/
def State.forgetBuffers (s : State) : State :=
  { s with
    inBuf := ⟨s.free, []⟩
    bs := ⟨s.free, []⟩
    out := ⟨s.free, []⟩
    free := s.free + 1 }

/-! ### The pixel grid -/

/-- One `set(x, y, bit)` of a write list (45_pattern_renderer.md R185). Coordinates are integers and
may be negative (R181). -/
structure PixWrite where
  x : Int
  y : Int
  bit : Bool
  deriving DecidableEq, Repr

/-- The key of pixel `(x, y)`: rows of `2^32`, since a coordinate is below a 32-bit register. -/
def pixKey (x y : Nat) : Nat := y * 2 ^ 32 + x

/-- What an unwritten pixel holds: PIX_INIT on a grid `construct` made (R213), the host's unknown
contents otherwise (R46). -/
def Grid.unwritten (g : Grid) (x y : Nat) : Bool :=
  match g.init with
  | some (w, h) => Config.pixInit w h x y
  | none => Config.freePix g.epoch (pixKey x y)

/-- `get(x, y)` (20_memory.md R66). -/
def Grid.get (g : Grid) (x y : Nat) : Bool :=
  (cellsFind g.cells (pixKey x y)).getD (g.unwritten x y)

/-- `set(x, y, b)`: that pixel holds `b` and no other pixel changes (R66). -/
def Grid.set (g : Grid) (x y : Nat) (b : Bool) : Grid :=
  { g with cells := cellsSet g.cells (pixKey x y) b }

/-- `construct(w, h)`: a new grid holding PIX_INIT(w, h) (R66, 46_symbol_assembler.md R213). -/
def Grid.construct (g : Grid) (w h : Nat) : Grid :=
  { g with init := some (w, h), cells := [] }

/-- A grid of the host's own, of unknown contents (20_memory.md R74). -/
def Grid.provided (draw : Nat) : Grid := ⟨draw, none, []⟩

/-- Perform a write list in order (R185): a later write to the same pixel wins. -/
def Grid.perform (g : Grid) (ws : List PixWrite) : Grid :=
  ws.foldl (fun g w => g.set w.x.toNat w.y.toNat w.bit) g

/-- The canonical form of all the memory of a state (log entry 2). -/
abbrev Memory.wf (s : State) : Prop :=
  cellsWf inDepth s.inBuf.cells ∧ cellsWf Config.params.bsMax s.bs.cells ∧
    cellsWf outDepth s.out.cells ∧ cellsWf (2 ^ 64) s.pix.cells

/-! ### Bits and bytes of a stream -/

/-- `bin8(v)`, most significant bit first (00_scope.md R8). -/
def bin8 (v : Byte) : Bits :=
  [v.getMsbD 0, v.getMsbD 1, v.getMsbD 2, v.getMsbD 3, v.getMsbD 4, v.getMsbD 5, v.getMsbD 6,
    v.getMsbD 7]

/-- `bits4(m)`, most significant bit first (20_memory.md R63). -/
def bits4 (m : BitVec 4) : Bits :=
  [m.getMsbD 0, m.getMsbD 1, m.getMsbD 2, m.getMsbD 3]

/-- `val(s)`: the number a bit sequence stands for, first bit most significant (R8). -/
def val : Bits → Nat
  | [] => 0
  | b :: s => b.toNat * 2 ^ s.length + val s

/-- `bytes(s)`: the stream read as bytes (R8). Bits beyond the last whole byte are not read. -/
def bytes : Bits → List Byte
  | b0 :: b1 :: b2 :: b3 :: b4 :: b5 :: b6 :: b7 :: rest =>
    BitVec.ofNat 8 (val [b0, b1, b2, b3, b4, b5, b6, b7]) :: bytes rest
  | _ => []

/-- `zeros(n)` (R7). -/
def zeros (n : Nat) : Bits := List.replicate n false

/-- `ceil8(n)`: the least multiple of 8 that is `>= n` (R9). -/
def ceil8 (n : Nat) : Nat := (n + 7) / 8 * 8

/-! ### Faults, completion, issue -/

/-- The code of a fault (60_exceptions.md R240). -/
def Cause.code : Cause → BitVec 8
  | .capacityExceeded _ => 1
  | .lengthOverflow _ => 2
  | .unsupportedCharacter _ => 3
  | .formatMismatch _ => 4
  | .gridBoundsViolation => 5
  | .illegalCommand _ => 6
  | .badParameter _ => 7
  | .streamMisaligned _ => 8
  | .streamTruncated _ => 9
  | .targetTooSmall _ => 10
  | .bufferOverflow _ => 11
  | .blockTooLong _ => 12

/-- The information value of a fault (60_exceptions.md R240). -/
def Cause.info : Cause → BitVec 32
  | .capacityExceeded n => BitVec.ofNat 32 n
  | .lengthOverflow n => BitVec.ofNat 32 n
  | .unsupportedCharacter i => BitVec.ofNat 32 i
  | .formatMismatch m => BitVec.ofNat 32 m
  | .gridBoundsViolation => 0
  | .illegalCommand w => BitVec.ofNat 32 w
  | .badParameter r => BitVec.ofNat 32 r
  | .streamMisaligned n => BitVec.ofNat 32 n
  | .streamTruncated n => BitVec.ofNat 32 n
  | .targetTooSmall n => BitVec.ofNat 32 n
  | .bufferOverflow n => BitVec.ofNat 32 n
  | .blockTooLong k => BitVec.ofNat 32 k

/-- Taking a fault: the one operation that reports one (60_exceptions.md R255). Nothing else is
written, nothing is saved, there is no handler and no return (R257). -/
def State.raise (c : Cause) (s : State) : State :=
  { s with errcode := c.code, errinfo := c.info, status := statusFault }

/-- Completion without a fault (60_exceptions.md R256). -/
def State.complete (s : State) : State :=
  { s with errcode := 0, errinfo := 0, status := statusDone }

/-- The end of a command: `r` is the state with the command's writes, or the fault that abandoned the
command before its first write (60_exceptions.md R253, R255, R256). -/
def conclude (s : State) (r : Except Cause State) : Host.Outcome State Fault Refusal :=
  .next (match r with
    | .ok t => t.complete
    | .error c => s.raise c)

/-- The issue of a command, step 1 of 70_reset_and_hazards.md R288 (10_state.md R23): CMD holds the
word, BUSY is set, the old report is cleared. `meanwhile` is what the outside does before step 2. -/
def State.issue (w : Byte) (meanwhile : List BusyEvent) (s : State) : State :=
  { s with cmd := w, status := statusBusy, errcode := 0, errinfo := 0, meanwhile := meanwhile }

/-- Every register of 10_state.md R21 but CMD and STATUS at its reset value (R49, 47 R229). -/
def State.clearRegs (s : State) : State :=
  { s with
    errcode := 0, errinfo := 0, len := 0, bslen := 0, target := 0, version := 0, outlen := 0
    scale := 0, border := 0, msize := 0, dim := 0, gridW := 0, gridH := 0 }

end Sys2Proof.Machine
end

