-- ==== Sys2Proof/Machine/Operands.lean ====
section
/-! DEFINITION. The operand forms of the commands (30_encoding.md R94): the input string
`IN[0 : LEN]`, the bit stream `BS[0 : BSLEN]`, and the drawing parameters VERSION, SCALE and BORDER
with their checks (45_pattern_renderer.md R184); and the host's view of the register file
(10_state.md R21, R22). -/

namespace Sys2Proof.Machine

/-- `IN[0 : LEN]` (R29, R33). -/
def State.inputString (s : State) : List CodePoint :=
  (List.range s.len.toNat).map s.readIn

/-- `BS[0 : BSLEN]`, the bit stream (R30, R34). -/
def State.stream (s : State) : Bits := s.slice 0 s.bslen.toNat

/-- `matrix_size(v)` (R45). -/
def matrixSize (v : Nat) : Nat := 21 + (v - 1) * 4

/-- `check_params` (R184): VERSION first, then SCALE; the answer is the matrix size. -/
def checkParams (s : State) : Except Cause Nat :=
  if s.version.toNat < 1 ∨ 8 < s.version.toNat then .error (.badParameter 7)
  else if s.scale.toNat = 0 then .error (.badParameter 9)
  else .ok (matrixSize s.version.toNat)

/-- A host read of register `n`, zero-extended (R9); 0 for a number that names no register (R21). -/
def State.readReg (s : State) : Nat → BitVec 32
  | 0 => s.cmd.setWidth 32
  | 1 => s.status.setWidth 32
  | 2 => s.errcode.setWidth 32
  | 3 => s.errinfo
  | 4 => s.len.setWidth 32
  | 5 => s.bslen.setWidth 32
  | 6 => s.target.setWidth 32
  | 7 => s.version.setWidth 32
  | 8 => s.outlen.setWidth 32
  | 9 => s.scale.setWidth 32
  | 10 => s.border.setWidth 32
  | 11 => s.msize.setWidth 32
  | 12 => s.dim
  | 13 => s.gridW
  | 14 => s.gridH
  | _ => 0

/-- A host write of register `n` at BUSY = 0, the value fitting the register: CMD issues a command
(R23), the RW registers take the value (70 R293), the RO registers and the numbers that name no
register are untouched (R21, R22). -/
def State.writeReg (s : State) (n v : Nat) : State :=
  match n with
  | 0 => s.issue (BitVec.ofNat 8 v) []
  | 4 => { s with len := BitVec.ofNat 16 v }
  | 5 => { s with bslen := BitVec.ofNat 16 v }
  | 6 => { s with target := BitVec.ofNat 16 v }
  | 7 => { s with version := BitVec.ofNat 8 v }
  | 9 => { s with scale := BitVec.ofNat 8 v }
  | 10 => { s with border := BitVec.ofNat 8 v }
  | 13 => { s with gridW := BitVec.ofNat 32 v }
  | 14 => { s with gridH := BitVec.ofNat 32 v }
  | _ => s

end Sys2Proof.Machine
end

