-- ==== Sys2Proof/Machine/Render.lean ====
section
/-! DEFINITION. The PatternRenderer, commands DRF, DRA and DRT (45_pattern_renderer.md). -/

namespace Sys2Proof.Machine

/-- A module of the matrix with its colour: column, row, dark (R181, R183). The coordinates are
integers and may be any value. -/
structure DrawnModule where
  mx : Int
  my : Int
  dark : Bool
  deriving DecidableEq, Repr

/-- `set_module` (R181): the `S * S` pixel writes of one module, row by row. -/
def setModule (P : Params) (S B : Nat) (m : DrawnModule) : List PixWrite :=
  (List.range S).flatMap fun (dy : Nat) =>
    (List.range S).map fun (dx : Nat) =>
      { x := ((B : Int) + m.mx) * (S : Int) + (dx : Int)
        y := ((B : Int) + m.my) * (S : Int) + (dy : Int)
        bit := if m.dark then P.darkBit else !P.darkBit }

/-- The write list of a list of modules (R185). -/
def writeList (P : Params) (S B : Nat) (ms : List DrawnModule) : List PixWrite :=
  ms.flatMap (setModule P S B)

/-- A pixel write inside a grid of `w` by `h` pixels (R186). -/
def PixWrite.inside (w h : Nat) (p : PixWrite) : Bool :=
  decide (0 ≤ p.x) && decide (p.x < w) && decide (0 ≤ p.y) && decide (p.y < h)

/-! ### The three patterns -/

/-- `finder_colour` (R187), true for dark; the clauses in that order. -/
def finderDark (x y : Nat) : Bool :=
  if x = 0 ∨ x = 6 ∨ y = 0 ∨ y = 6 then true
  else if x = 1 ∨ x = 5 ∨ y = 1 ∨ y = 5 then false
  else true

/-- The 49 modules of one finder with its top-left module at `(ox, oy)` (R190). -/
def finderAt (ox oy : Int) : List DrawnModule :=
  (List.range 7).flatMap fun (y : Nat) =>
    (List.range 7).map fun (x : Nat) => ⟨ox + (x : Int), oy + (y : Int), finderDark x y⟩

/-- The three finders of a matrix of side `n`: top-left, bottom-left, top-right (R188, R190). -/
def finderModules (n : Nat) : List DrawnModule :=
  finderAt 0 0 ++ finderAt 0 ((n : Int) - 7) ++ finderAt ((n : Int) - 7) 0

/-- The offsets of an alignment pattern, ascending (R196). -/
def alignOffsets : List Int := [-2, -1, 0, 1, 2]

/-- `align_colour` (R192), true for dark; the clauses in that order. -/
def alignDark (x y : Int) : Bool :=
  if x.natAbs = 2 ∨ y.natAbs = 2 then true
  else if x.natAbs = 1 ∨ y.natAbs = 1 then false
  else true

/-- The 25 modules of the alignment pattern centred at `(cx, cy)` (R196). -/
def alignAt (cx cy : Int) : List DrawnModule :=
  alignOffsets.flatMap fun y =>
    alignOffsets.map fun x => ⟨cx + x, cy + y, alignDark x y⟩

/-- `in_finder_zone` (R194): the three 8 by 8 corner regions, bounds included. -/
def inFinderZone (cx cy : Int) (n : Nat) : Bool :=
  let low (c : Int) : Bool := decide (0 ≤ c) && decide (c ≤ 7)
  let high (c : Int) : Bool := decide ((n : Int) - 8 ≤ c) && decide (c ≤ (n : Int) - 1)
  (low cx && low cy) || (low cx && high cy) || (high cx && low cy)

/-- The drawn centres, in visiting order: `cx` outer, `cy` inner, both in list order, those in a
finder zone left out (R193, R194). -/
def alignCentres (n : Nat) (A : List Int) : List (Int × Int) :=
  (A.flatMap fun cx => A.map fun cy => (cx, cy)).filter fun c => !inFinderZone c.1 c.2 n

/-- The modules DRA draws for a version with matrix side `n`; none below version 2 (R196). -/
def alignModules (P : Params) (version n : Nat) : List DrawnModule :=
  if 2 ≤ version then
    (alignCentres n (P.alignOf version)).flatMap fun c => alignAt c.1 c.2
  else []

/-- The modules of the two timing lines: for `i` from 6 to `n - 7`, row 6 then column 6, dark when `i`
is even (R198, R201). -/
def timingModules (n : Nat) : List DrawnModule :=
  (List.range' 6 (n - 12)).flatMap fun (i : Nat) =>
    [⟨(i : Int), 6, i % 2 == 0⟩, ⟨6, (i : Int), i % 2 == 0⟩]

/-! ### The commands -/

/-- The write list of a drawing command after its checks, parameters first, then the grid bounds of
the whole list (R184 to R186). `ms` gives the modules for the matrix side. -/
def drawnWrites (P : Params) (s : State) (ms : Nat → List DrawnModule) :
    Except Cause (List PixWrite) :=
  match checkParams s with
  | .error c => .error c
  | .ok n =>
    if (writeList P s.scale.toNat s.border.toNat (ms n)).all
        (PixWrite.inside s.gridW.toNat s.gridH.toNat) then
      .ok (writeList P s.scale.toNat s.border.toNat (ms n))
    else .error .gridBoundsViolation

/-- The writes of a drawing command, or its fault: nothing is written unless the whole list fits
(R185, R186). -/
def drawCmd (P : Params) (s : State) (ms : Nat → List DrawnModule) : Except Cause State :=
  match drawnWrites P s ms with
  | .ok ws => .ok { s with pix := s.pix.perform ws }
  | .error c => .error c

/-- The writes of DRF, or its fault (R190). -/
def drfCmd (P : Params) (s : State) : Except Cause State := drawCmd P s finderModules

/-- The writes of DRA, or its fault (R196). -/
def draCmd (P : Params) (s : State) : Except Cause State :=
  drawCmd P s (alignModules P s.version.toNat)

/-- The writes of DRT, or its fault (R201). -/
def drtCmd (P : Params) (s : State) : Except Cause State := drawCmd P s timingModules

/-- DRF (R190). -/
def execDrf (s : State) : Host.Outcome State Fault Refusal :=
  conclude s (drfCmd Config.params s)

/-- DRA (R196). -/
def execDra (s : State) : Host.Outcome State Fault Refusal :=
  conclude s (draCmd Config.params s)

/-- DRT (R201). -/
def execDrt (s : State) : Host.Outcome State Fault Refusal :=
  conclude s (drtCmd Config.params s)

end Sys2Proof.Machine
end

