-- ==== Sys2Proof/Machine/Assemble.lean ====
section
/-! DEFINITION. The SymbolAssembler, command ASM (46_symbol_assembler.md). -/

namespace Sys2Proof.Machine

/-- The side of the canvas in pixels (R212). -/
def canvasDim (n S B : Nat) : Nat := (n + 2 * B) * S

/-- The modules ASM draws, finders first, then alignment, then timing (R211). -/
def symbolModules (P : Params) (version n : Nat) : List DrawnModule :=
  finderModules n ++ alignModules P version n ++ timingModules n

/-- The write list of ASM after its checks, the bounds being those of the new canvas (R211). The
answer is the matrix side and the list. -/
def assembledWrites (P : Params) (s : State) : Except Cause (Nat × List PixWrite) :=
  match checkParams s with
  | .error c => .error c
  | .ok n =>
    let dim := canvasDim n s.scale.toNat s.border.toNat
    let ws := writeList P s.scale.toNat s.border.toNat (symbolModules P s.version.toNat n)
    if ws.all (PixWrite.inside dim dim) then .ok (n, ws) else .error .gridBoundsViolation

/-- The writes of ASM, or its fault: the result registers, the new canvas, then the list (R211). -/
def asmCmd (P : Params) (s : State) : Except Cause State :=
  match assembledWrites P s with
  | .error c => .error c
  | .ok (n, ws) =>
    let dim := canvasDim n s.scale.toNat s.border.toNat
    .ok { s with
      msize := BitVec.ofNat 8 n
      dim := BitVec.ofNat 32 dim
      gridW := BitVec.ofNat 32 dim
      gridH := BitVec.ofNat 32 dim
      pix := (s.pix.construct dim dim).perform ws }

/-- ASM (R211). -/
def execAsm (s : State) : Host.Outcome State Fault Refusal :=
  conclude s (asmCmd Config.params s)

end Sys2Proof.Machine
end

