-- ==== Sys2Proof/Machine/Encode.lean ====
section
/-! DEFINITION. The ByteModeEncoder, command ENC (41_byte_mode_encoder.md). -/

namespace Sys2Proof.Machine

/-- The lowest index of a code point above 255 (R134). -/
def firstUnsupported (c : List CodePoint) : Option Nat :=
  c.findIdx? fun x => decide (255 < x.toNat)

/-- The byte-mode stream of a string: mode indicator, count indicator, payload (R130, R132). -/
def byteModeStream (mode : BitVec 4) (c : List Byte) : Bits :=
  bits4 mode ++ bin8 (BitVec.ofNat 8 c.length) ++ c.flatMap bin8

/-- The stream ENC and SYM build from LEN and IN, or their faults, length first (R132 to R134). -/
def encodeInput (P : Params) (s : State) : Except Cause Bits :=
  if 255 < s.len.toNat then .error (.lengthOverflow s.len.toNat)
  else
    match firstUnsupported s.inputString with
    | some i => .error (.unsupportedCharacter i)
    | none => .ok (byteModeStream P.modeByte (s.inputString.map (fun c => c.setWidth 8)))

/-- The writes of ENC, or its fault (R132). -/
def encCmd (P : Params) (s : State) : Except Cause State :=
  match encodeInput P s with
  | .ok w => .ok (s.replaceStream w)
  | .error c => .error c

/-- ENC (R132). -/
def execEnc (s : State) : Host.Outcome State Fault Refusal :=
  conclude s (encCmd Config.params s)

end Sys2Proof.Machine
end

