-- ==== Sys2Proof/Machine/ErrorCorrection.lean ====
section
/-! DEFINITION. The ErrorCorrectionEncoder, command ECC, and the arithmetic of GF(256)
(43_error_correction_encoder.md). -/

namespace Sys2Proof.Machine

/-- `gf_add` (R152). -/
def gfAdd (a b : Byte) : Byte := a ^^^ b

/-- The shift-and-add loop of `gf_mul` (R153): rounds left, `p`, `a`, `b`. -/
def gfMulLoop (poly : BitVec 9) : Nat → Byte → Byte → Byte → Byte
  | 0, p, _, _ => p
  | k + 1, p, a, b =>
    let p' := if b.getLsbD 0 then p ^^^ a else p
    let a' := if a.getLsbD 7 then (a <<< 1) ^^^ poly.setWidth 8 else a <<< 1
    gfMulLoop poly k p' a' (b >>> 1)

/-- `gf_mul(a, b)` under the field polynomial `poly` (R153). -/
def gfMul (poly : BitVec 9) (a b : Byte) : Byte := gfMulLoop poly 8 0 a b

/-- One round of the division (R157): `r` is shifted toward index 0 and the multiple `f` of the
generator is taken from it. -/
def rsStep (P : Params) (r : List Byte) (d : Byte) : List Byte :=
  let f := gfAdd d (r.headD 0)
  List.zipWith (fun rj gj => gfAdd rj (gfMul P.gfPoly gj f)) (r.tail ++ [0]) P.rsGen.tail

/-- `rs_remainder(d)`: the seven redundancy bytes (R157). -/
def rsRemainder (P : Params) (d : List Byte) : List Byte :=
  d.foldl (rsStep P) (List.replicate nEc 0)

/-- A byte-aligned stream followed by its redundancy, `r[0]` first (R158). -/
def protectBits (P : Params) (w : Bits) : Bits :=
  w ++ (rsRemainder P (bytes w)).flatMap bin8

/-- Append the redundancy, or report that the block is too long (R158, R160). -/
def protectStream (P : Params) (w : Bits) : Except Cause Bits :=
  if kMax < w.length / 8 then .error (.blockTooLong (w.length / 8))
  else .ok (protectBits P w)

/-- The writes of ECC, or its fault, in the order of R158. -/
def eccCmd (P : Params) (s : State) : Except Cause State :=
  if P.bsMax < s.bslen.toNat then .error (.bufferOverflow s.bslen.toNat)
  else if s.bslen.toNat % 8 ≠ 0 then .error (.streamMisaligned s.bslen.toNat)
  else
    match protectStream P s.stream with
    | .ok w => .ok (s.writeStream w)
    | .error c => .error c

/-- ECC (R158). -/
def execEcc (s : State) : Host.Outcome State Fault Refusal :=
  conclude s (eccCmd Config.params s)

end Sys2Proof.Machine
end

