-- ==== Sys2Proof/Machine/Finish.lean ====
section
/-! DEFINITION. The BitStreamFinisher, command FIN (42_bitstream_finisher.md). -/

namespace Sys2Proof.Machine

/-- Step 1, the terminator: up to four zero bits, never past the target (R141). -/
def terminate (T : Nat) (w : Bits) : Bits :=
  w ++ zeros (min termMax (T - w.length))

/-- Step 2, byte alignment: one zero bit at a time until the length is a multiple of 8, at most `fuel`
times (R141: at most 7). -/
def alignLoop : Nat → Bits → Bits
  | 0, w => w
  | fuel + 1, w => if w.length % 8 ≠ 0 then alignLoop fuel (w ++ [false]) else w

/-- Fill byte `k` of one FIN, counted from 0 (R141). -/
def fillByte (k : Nat) : Byte := if k % 2 = 0 then fill0 else fill1

/-- Step 3, the fill bytes: whole bytes while they do not pass the target, at most `fuel` of them
(R141: at most `T div 8`). -/
def fillLoop (T : Nat) : Nat → Nat → Bits → Bits
  | 0, _, w => w
  | fuel + 1, k, w =>
    if w.length + 8 ≤ T then fillLoop T fuel (k + 1) (w ++ bin8 (fillByte k)) else w

/-- The three steps in order (R141). -/
def finishBits (T : Nat) (w : Bits) : Bits :=
  fillLoop T (T / 8) 0 (alignLoop 7 (terminate T w))

/-- `L3`, the finished length in closed form (R144), which the overflow check uses (R141, R143). -/
def finishedLength (L0 T : Nat) : Nat :=
  max (ceil8 (L0 + min 4 (T - L0))) (8 * (T / 8))

/-- Finish a stream that is not longer than the target, or report that the result does not fit BS
(R143). -/
def finishStream (P : Params) (T : Nat) (w : Bits) : Except Cause Bits :=
  if P.bsMax < finishedLength w.length T then .error (.bufferOverflow (finishedLength w.length T))
  else .ok (finishBits T w)

/-- The writes of FIN, or its fault, in the order of R141. -/
def finCmd (P : Params) (s : State) : Except Cause State :=
  if P.bsMax < s.bslen.toNat then .error (.bufferOverflow s.bslen.toNat)
  else if s.target.toNat < s.bslen.toNat then .error (.targetTooSmall s.bslen.toNat)
  else
    match finishStream P s.target.toNat s.stream with
    | .ok w => .ok (s.writeStream w)
    | .error c => .error c

/-- FIN (R141). -/
def execFin (s : State) : Host.Outcome State Fault Refusal :=
  conclude s (finCmd Config.params s)

end Sys2Proof.Machine
end

