-- ==== Sys2Proof/Machine/Select.lean ====
section
/-! DEFINITION. The VersionSelector, command SEL (40_version_selector.md). -/

namespace Sys2Proof.Machine

/-- `choose(n, t)`: the first version, ascending, whose capacity at the tier holds `n` bits (R121,
R122). -/
def choose (P : Params) (t : Tier) (n : Nat) : Option Nat :=
  versions.find? fun v => decide (n ≤ P.capOf v t)

/-- The scan with its fault (R121). -/
def selectVersion (P : Params) (t : Tier) (n : Nat) : Except Cause Nat :=
  match choose P t n with
  | some v => .ok v
  | none => .error (.capacityExceeded n)

/-- `VERSION <- v`, `TARGET <- CAP[v][t]` (R121, R122). -/
def State.setVersion (P : Params) (t : Tier) (v : Nat) (s : State) : State :=
  { s with
    version := BitVec.ofNat 8 v
    target := BitVec.ofNat 16 (P.capOf v t) }

/-- The writes of SEL t, or its fault (R121). -/
def selCmd (P : Params) (t : Tier) (s : State) : Except Cause State :=
  match selectVersion P t s.bslen.toNat with
  | .ok v => .ok (s.setVersion P t v)
  | .error c => .error c

/-- SEL t (R121). -/
def execSel (t : Tier) (s : State) : Host.Outcome State Fault Refusal :=
  conclude s (selCmd Config.params t s)

end Sys2Proof.Machine
end

