-- ==== Sys2Proof/Machine/Pipeline.lean ====
section
/-! DEFINITION. The whole encode data flow as one command, SYM (47_pipeline_and_system.md R220,
R221). -/

namespace Sys2Proof.Machine

/-- Steps 2 to 4 of SYM on the stream `w` of step 1: select, finish, protect (R221). The answer is the
version and the finished and protected stream. -/
def symbolData (P : Params) (t : Tier) (w : Bits) : Except Cause (Nat × Bits) :=
  match selectVersion P t w.length with
  | .error c => .error c
  | .ok v =>
    match finishStream P (P.capOf v t) w with
    | .error c => .error c
    | .ok f =>
      match protectStream P f with
      | .error c => .error c
      | .ok e => .ok (v, e)

/-- The writes of SYM t, or its fault: every step works on temporaries, BS, BSLEN, VERSION and TARGET
are written at the end (R221). -/
def symCmd (P : Params) (t : Tier) (s : State) : Except Cause State :=
  match encodeInput P s with
  | .error c => .error c
  | .ok w =>
    match symbolData P t w with
    | .error c => .error c
    | .ok (v, e) => .ok ((s.replaceStream e).setVersion P t v)

/-- SYM t (R221). -/
def execSym (t : Tier) (s : State) : Host.Outcome State Fault Refusal :=
  conclude s (symCmd Config.params t s)

end Sys2Proof.Machine
end

