-- ==== Sys2Proof/Machine/StreamDecode.lean ====
section
/-! DEFINITION. The StreamDecoder, command DEC (44_stream_decoder.md). -/

namespace Sys2Proof.Machine

/-- `val(BS[i : i + n])` (R172). -/
def State.field (s : State) (i n : Nat) : Nat := val (s.slice i n)

/-- The payload of `n` bytes, from stream index 12 on (R172). -/
def State.payload (s : State) (n : Nat) : List Byte :=
  (List.range n).map fun i => BitVec.ofNat 8 (s.field (12 + 8 * i) 8)

/-- The writes of DEC, or its fault, in the order of R172. -/
def decCmd (P : Params) (s : State) : Except Cause State :=
  if P.bsMax < s.bslen.toNat then .error (.bufferOverflow s.bslen.toNat)
  else if s.bslen.toNat < 4 then .error (.streamTruncated s.bslen.toNat)
  else if s.field 0 4 ≠ P.modeByte.toNat then .error (.formatMismatch (s.field 0 4))
  else if s.bslen.toNat < 12 then .error (.streamTruncated s.bslen.toNat)
  else if s.bslen.toNat < 12 + 8 * s.field 4 8 then .error (.streamTruncated s.bslen.toNat)
  else .ok (s.replaceOut (s.payload (s.field 4 8)))

/-- DEC (R172). -/
def execDec (s : State) : Host.Outcome State Fault Refusal :=
  conclude s (decCmd Config.params s)

end Sys2Proof.Machine
end

