-- ==== Sys2Proof/Machine/System.lean ====
section
/-! DEFINITION. The system commands NOP and RST (47_pipeline_and_system.md R228, R229). -/

namespace Sys2Proof.Machine

/-- NOP (R228): nothing but the completion, which clears the report. -/
def execNop (s : State) : Host.Outcome State Fault Refusal :=
  conclude s (.ok s)

/-- The writes of RST (R229): the registers to their reset values, CMD kept, IN, BS and OUT
unspecified, PIX not touched. -/
def rstCmd (s : State) : Except Cause State :=
  .ok s.forgetBuffers.clearRegs

/-- RST (R229). -/
def execRst (s : State) : Host.Outcome State Fault Refusal :=
  conclude s (rstCmd s)

end Sys2Proof.Machine
end

