-- ==== Sys2Proof/Syntax.lean ====
section
/-! DEFINITION. The commands of the block, one constructor per row of spec/opcode_table.json
(30_encoding.md R92). The tier is the only operand a command word carries (R90, R94). -/

namespace Sys2Proof

/-- A command. `sel` and `sym` carry the tier of their word; every other command takes all its
operands from registers and buffers (R94). -/
inductive Instr where
  | nop
  | sel (t : Tier)
  | enc
  | fin
  | ecc
  | dec
  | sym (t : Tier)
  | drf
  | dra
  | drt
  | asm
  | rst
  deriving DecidableEq, Repr, Inhabited

end Sys2Proof
end

