-- ==== Sys2Proof/Machine/Dispatch.lean ====
section
/-! DEFINITION. The dispatch: one arm per command, each a direct call of its meaning. -/

namespace Sys2Proof.Machine

/-- Step 2 of 70_reset_and_hazards.md R288 for a decoded command: the command executed on the state as
it is, as one atomic step. -/
def exec (i : Instr) (s : State) : Host.Outcome State Fault Refusal :=
  match i with
  | .nop => Sys2Proof.Machine.execNop s
  | .sel t => Sys2Proof.Machine.execSel t s
  | .enc => Sys2Proof.Machine.execEnc s
  | .fin => Sys2Proof.Machine.execFin s
  | .ecc => Sys2Proof.Machine.execEcc s
  | .dec => Sys2Proof.Machine.execDec s
  | .sym t => Sys2Proof.Machine.execSym t s
  | .drf => Sys2Proof.Machine.execDrf s
  | .dra => Sys2Proof.Machine.execDra s
  | .drt => Sys2Proof.Machine.execDrt s
  | .asm => Sys2Proof.Machine.execAsm s
  | .rst => Sys2Proof.Machine.execRst s

end Sys2Proof.Machine
end

