-- ==== Sys2Proof/WellFormed.lean ====
section
/-! DEFINITION. Well-formedness: every command term is well formed, because its one operand is a
tier and all four tiers are legal (30_encoding.md R93); a host access is well formed when its
register value fits the register (10_state.md R22) and its index can name an entry (20_memory.md
R60). -/

namespace Sys2Proof

/-- The tier operand of a command, for the commands that take one (R94). -/
def Instr.tier? : Instr → Option Tier
  | .nop => none
  | .sel t => some t
  | .enc => none
  | .fin => none
  | .ecc => none
  | .dec => none
  | .sym t => some t
  | .drf => none
  | .dra => none
  | .drt => none
  | .asm => none
  | .rst => none

/-- A command is well formed when its tier, if it has one, is one of the four of R93. -/
def Instr.wf (i : Instr) : Bool :=
  match i.tier? with
  | some t => Tier.all.contains t
  | none => true

namespace Machine

/-- The width in bits of register `n` (10_state.md R21); 0 for a number that names no register. -/
def regWidth : Nat → Nat
  | 0 => 8
  | 1 => 8
  | 2 => 8
  | 3 => 32
  | 4 => 16
  | 5 => 16
  | 6 => 16
  | 7 => 8
  | 8 => 8
  | 9 => 8
  | 10 => 8
  | 11 => 8
  | 12 => 32
  | 13 => 32
  | 14 => 32
  | _ => 0

/-- A host access that the typed interface of R22 and R60 can present. An absent register number is
well formed with any value: such an access has no effect (R21). `bsMax` is the capacity of BS. -/
def HostAccess.wf (bsMax : Nat) : HostAccess → Bool
  | .wrReg n v => decide (15 ≤ n) || decide (v < 2 ^ regWidth n)
  | .rdReg _ => true
  | .wrIn i _ => decide (i < 255)
  | .rdIn i => decide (i < 255)
  | .wrBs i _ => decide (i < bsMax)
  | .rdBs i => decide (i < bsMax)
  | .wrOut i _ => decide (i < 255)
  | .rdOut i => decide (i < 255)
  | .setPix x y _ => decide (x < 2 ^ 32) && decide (y < 2 ^ 32)
  | .getPix x y => decide (x < 2 ^ 32) && decide (y < 2 ^ 32)
  | .newGrid => true

end Machine

end Sys2Proof
end

