-- ==== Sys2Proof/Decode.lean ====
section
/-! DEFINITION. Decoding of the command word, total, with a named reason for each of the 238 illegal
words (30_encoding.md R91, R95, R96), and after it the encoder, written from the same table (R92). -/

namespace Sys2Proof

/-- Why a word is illegal (R95). The block reports all three alike, as IllegalCommand. -/
inductive DecodeReject where
  /-- `rsv != 0`. -/
  | reservedBits
  /-- `tier != 0` in a command that takes no tier. -/
  | tierNotTaken
  /-- `op` is 0xB to 0xE. -/
  | reservedOpcode
  deriving DecidableEq, Repr

/-- The tier a 2-bit field names (R93). -/
def tierOfField (f : BitVec 2) : Tier :=
  match f.toNat with
  | 0 => .L
  | 1 => .M
  | 2 => .Q
  | _ => .H

/-- The 2-bit field of a tier (R93). -/
def fieldOfTier : Tier → BitVec 2
  | .L => 0
  | .M => 1
  | .Q => 2
  | .H => 3

/-- The command of an opcode that takes no tier (R92); `none` for the others. -/
def untieredOp : Nat → Option Instr
  | 0x0 => some .nop
  | 0x2 => some .enc
  | 0x3 => some .fin
  | 0x4 => some .ecc
  | 0x5 => some .dec
  | 0x7 => some .drf
  | 0x8 => some .dra
  | 0x9 => some .drt
  | 0xA => some .asm
  | 0xF => some .rst
  | _ => none

/-- The decode function of R96, clause for clause. -/
def decode (w : Byte) : Except DecodeReject Instr :=
  let rsv := w.extractLsb' 6 2
  let tier := w.extractLsb' 4 2
  let op := (w.extractLsb' 0 4).toNat
  if rsv ≠ 0 then .error .reservedBits
  else if op = 0x1 then .ok (.sel (tierOfField tier))
  else if op = 0x6 then .ok (.sym (tierOfField tier))
  else if tier ≠ 0 then .error .tierNotTaken
  else
    match untieredOp op with
    | some i => .ok i
    | none => .error .reservedOpcode

/-- The command read from the words of the opcode table: every command is one 8-bit word (R97), so a
number that needs more than 8 bits, or more bits than `nbits`, is no command. -/
def decodeTableWord (nbits w : Nat) : Option Instr :=
  if w < 2 ^ nbits ∧ w < 256 then
    match decode (BitVec.ofNat 8 w) with
    | .ok i => some i
    | .error _ => none
  else none

/-- The opcode of a command (R92). -/
def opOf : Instr → BitVec 4
  | .nop => 0x0
  | .sel _ => 0x1
  | .enc => 0x2
  | .fin => 0x3
  | .ecc => 0x4
  | .dec => 0x5
  | .sym _ => 0x6
  | .drf => 0x7
  | .dra => 0x8
  | .drt => 0x9
  | .asm => 0xA
  | .rst => 0xF

/-- The word of a command: `rsv = 0`, the tier or 0, the opcode (R91). -/
def encode (i : Instr) : Byte :=
  (0 : BitVec 2) ++ (i.tier?.map fieldOfTier).getD 0 ++ opOf i

/-- The 18 legal words, as R96 lists them. -/
def legalWords : List Byte :=
  [0x00, 0x01, 0x11, 0x21, 0x31, 0x02, 0x03, 0x04, 0x05, 0x06, 0x16, 0x26, 0x36, 0x07, 0x08, 0x09,
    0x0A, 0x0F]

end Sys2Proof
end

