-- ==== Sys2Proof/Machine/HostOps.lean ====
section
/-! DEFINITION. What the outside does to the block: the host's accesses while BUSY = 0 (10_state.md
R21 to R23, 20_memory.md R70, R74), what may happen while BUSY = 1 (70_reset_and_hazards.md R290), and
the hardware reset at any time (R280). -/

namespace Sys2Proof.Machine

/-- A pixel that a reset caught in the middle of being written holds any value (93 U4): draw number
`draw`. -/
def PixWrite.anyValue (draw : Nat) (p : PixWrite) : PixWrite :=
  { p with bit := Config.freePix draw (pixKey p.x.toNat p.y.toNat) }

/-- The grid after a drawing command was abandoned: every pixel of its write list holds any value, the
others are untouched; nothing is written by a command that would have faulted (93 U4, R253). -/
def abandonWrites (s : State) : Except Cause (List PixWrite) → Grid
  | .ok ws => s.pix.perform (ws.map (PixWrite.anyValue s.free))
  | .error _ => s.pix

/-- The grid after the command in CMD was abandoned by a reset (70 R280). An abandoned ASM may or may
not have issued `construct`, so every pixel holds any value (log entry 12). -/
def abandonedPix (P : Params) (s : State) : Grid :=
  match decode s.cmd with
  | .error _ => s.pix
  | .ok .nop => s.pix
  | .ok (.sel _) => s.pix
  | .ok .enc => s.pix
  | .ok .fin => s.pix
  | .ok .ecc => s.pix
  | .ok .dec => s.pix
  | .ok (.sym _) => s.pix
  | .ok .drf => abandonWrites s (drawnWrites P s finderModules)
  | .ok .dra => abandonWrites s (drawnWrites P s (alignModules P s.version.toNat))
  | .ok .drt => abandonWrites s (drawnWrites P s timingModules)
  | .ok .asm =>
    match assembledWrites P s with
    | .ok _ => Grid.provided s.free
    | .error _ => s.pix
  | .ok .rst => s.pix

/-- The hardware reset (70 R280): every register 0, IN, BS and OUT unspecified; PIX untouched when the
block was idle. What the outside still had to do during the command, it now does on an idle block. -/
def State.hardReset (s : State) : State :=
  { s.forgetBuffers.clearRegs with
    cmd := 0
    status := 0
    pix := if s.busy then abandonedPix Config.params s else s.pix
    host := s.meanwhile.map BusyEvent.whenIdle ++ s.host
    meanwhile := [] }

/-- A read by the host: the value, no side effect (20_memory.md R69). -/
def State.returned (v : BitVec 32) (s : State) : State := { s with readData := v }

/-- One access of the host while BUSY = 0 (20_memory.md R70, R74). -/
def hostAccess (a : HostAccess) (s : State) : Host.Outcome State Fault Refusal :=
  match a with
  | .wrReg n v =>
    if 15 ≤ n ∨ v < 2 ^ regWidth n then .next (s.writeReg n v) else .refused (.valueTooWide a)
  | .rdReg n => .next (s.returned (s.readReg n))
  | .wrIn i c =>
    if i < inDepth then .next { s with inBuf := s.inBuf.write i c } else .fault (.noSuchEntry a)
  | .rdIn i =>
    if i < inDepth then .next (s.returned ((s.readIn i).setWidth 32)) else .fault (.noSuchEntry a)
  | .wrBs i b =>
    if i < Config.params.bsMax then .next { s with bs := s.bs.write i b }
    else .fault (.noSuchEntry a)
  | .rdBs i =>
    if i < Config.params.bsMax then .next (s.returned ((BitVec.ofBool (s.readBs i)).setWidth 32))
    else .fault (.noSuchEntry a)
  | .wrOut i _ => if i < outDepth then .next s else .fault (.noSuchEntry a)
  | .rdOut i =>
    if i < outDepth then .next (s.returned ((s.readOut i).setWidth 32)) else .fault (.noSuchEntry a)
  | .setPix x y b =>
    if x < s.gridW.toNat ∧ y < s.gridH.toNat then .next { s with pix := s.pix.set x y b }
    else .fault (.noSuchEntry a)
  | .getPix x y =>
    if x < s.gridW.toNat ∧ y < s.gridH.toNat then
      .next (s.returned ((BitVec.ofBool (s.pix.get x y)).setWidth 32))
    else .fault (.noSuchEntry a)
  | .newGrid => .next { s with pix := Grid.provided s.free, free := s.free + 1 }

/-- An event of the outside while BUSY = 0. -/
def hostEvent (e : HostEvent) (s : State) : Host.Outcome State Fault Refusal :=
  match e with
  | .access a => hostAccess a s
  | .issue w m => .next (s.issue w m)
  | .hardReset => .next s.hardReset

/-- An event of the outside while BUSY = 1: the host may read STATUS, every other access is outside
the spec (70 R290, 93 U1), and the platform may reset the block (70 R280). -/
def busyEvent (e : BusyEvent) (s : State) : Host.Outcome State Fault Refusal :=
  match e with
  | .access a =>
    if a = .rdReg 1 then .next (s.returned (s.readReg 1)) else .refused (.hostAccessWhileBusy a)
  | .hardReset => .next s.hardReset

end Sys2Proof.Machine
end

