-- ==== Sys2Proof/Machine/Run.lean ====
section
/-! DEFINITION. One move of the system (70_reset_and_hazards.md R281, R288 to R290): while BUSY = 1 the
outside's events of that time, then the block's execution of the word in CMD; while BUSY = 0 the
outside's next event; with nothing left to do the block sits idle. -/

namespace Sys2Proof.Machine

/-- Step 2 of R288: the block executes the word in CMD. An illegal word reports IllegalCommand with
the word, and nothing of the state is examined (30_encoding.md R95, 60_exceptions.md R250). -/
def runCommand (s : State) : Host.Outcome State Fault Refusal :=
  match decode s.cmd with
  | .ok i => exec i s
  | .error _ => .next (s.raise (.illegalCommand s.cmd.toNat))

/-- A move while BUSY = 1. -/
def busyStep (s : State) : Host.Outcome State Fault Refusal :=
  match s.meanwhile with
  | [] => runCommand s
  | e :: rest => busyEvent e { s with meanwhile := rest }

/-- A move while BUSY = 0: the block fetches nothing and waits for the outside (R281). -/
def idleStep (s : State) : Host.Outcome State Fault Refusal :=
  match s.host with
  | [] => .next s
  | e :: rest => hostEvent e { s with host := rest }

/-- One move of the system. -/
def advance (s : State) : Host.Outcome State Fault Refusal :=
  if s.busy then busyStep s else idleStep s

/-- Put a command word where the block takes its next command from: CMD, as an issue does (R288), with
nothing of the outside before the block executes it (log entry 7). -/
def State.placeWord (s : State) (w : Nat) : State := s.issue (BitVec.ofNat 8 w) []

end Sys2Proof.Machine
end

