-- ==== Sys2Proof/Machine/Step.lean ====
section
/-! DEFINITION. The step of the machine, and the placing of a command word for the next step. -/

namespace Sys2Proof.Machine

/-- One step: one move of the system (70_reset_and_hazards.md R288). -/
def step (s : State) : Host.Outcome State Fault Refusal := advance s

/-- The state with the command word `w` issued, so that the next step executes it. Every command is
one 8-bit word (30_encoding.md R97), so `nbits` adds nothing. -/
def State.withFetchWord (s : State) (_nbits w : Nat) : State := s.placeWord w

end Sys2Proof.Machine
end

