-- ==== Sys2Proof/Machine/Directives.lean ====
section
/-! DEFINITION. The host directives of 30_encoding.md R99, each with its expansion into events of the
outside world. They are no commands of the block. -/

namespace Sys2Proof.Machine

/-- `WR NAME, v`, the register by its number. -/
def dirWr (n v : Nat) : List HostEvent := [.access (.wrReg n v)]

/-- `RD NAME`, the register by its number. -/
def dirRd (n : Nat) : List HostEvent := [.access (.rdReg n)]

/-- `LOADSTR` of a list of code points: `IN[i] <- c_i`, then `WR LEN, n`. -/
def dirLoadStr (c : List CodePoint) : List HostEvent :=
  (c.zipIdx.map fun p => .access (.wrIn p.2 p.1)) ++ dirWr 4 c.length

/-- `LOADBITS`: `BS[i] <- b_i`, then `WR BSLEN, n`. -/
def dirLoadBits (w : Bits) : List HostEvent :=
  (w.zipIdx.map fun p => .access (.wrBs p.2 p.1)) ++ dirWr 5 w.length

/-- `LOADHEX`: `LOADBITS` of the bytes, most significant bit first. -/
def dirLoadHex (h : List Byte) : List HostEvent := dirLoadBits (h.flatMap bin8)

/-- `ATTACH w, h`: a grid of the host's own, then its size in GRID_W and GRID_H. -/
def dirAttach (w h : Nat) : List HostEvent := .access .newGrid :: (dirWr 13 w ++ dirWr 14 h)

/-- `<command>`: `WR CMD, word`, then STATUS reads until BUSY = 0; `polls` of them find BUSY = 1, an
open number (70_reset_and_hazards.md R297), the last one finds BUSY = 0. -/
def dirCommand (i : Instr) (polls : Nat) : List HostEvent :=
  [.issue (encode i) (List.replicate polls (.access (.rdReg 1))), .access (.rdReg 1)]

end Sys2Proof.Machine
end

