-- ==== Sys2Proof/Safety.lean ====
section
/-! DEFINITION. What the claims about runs are stated in: the invariant every step keeps, the accesses
a host that obeys the spec makes, and the colour a list of modules gives a pixel. -/

namespace Sys2Proof.Machine

/-- The three registers a host reads after a command: STATUS, ERRCODE, ERRINFO. -/
def State.report (s : State) : BitVec 8 × BitVec 8 × BitVec 32 := (s.status, s.errcode, s.errinfo)

/-- A state after a command that completed without a fault (60_exceptions.md R256). -/
def State.endsClean (s : State) : State := { s with status := 0b010, errcode := 0, errinfo := 0 }

/-- A state after a command that ended in the fault `code` with information `info` (60_exceptions.md
R255). -/
def State.endsInFault (s : State) (code : BitVec 8) (info : Nat) : State :=
  { s with status := 0b110, errcode := code, errinfo := BitVec.ofNat 32 info }

/-- LEN is at most 255 and every character of the input is at most 255 (41_byte_mode_encoder.md R132):
the strings byte mode admits. -/
def State.Admitted (s : State) : Prop :=
  s.len.toNat ≤ 255 ∧ ∀ i < s.len.toNat, (s.readIn i).toNat ≤ 255

/-- VERSION and SCALE are legal (45_pattern_renderer.md R184). -/
def State.Drawable (s : State) : Prop :=
  1 ≤ s.version.toNat ∧ s.version.toNat ≤ 8 ∧ s.scale.toNat ≠ 0

/-- The matrix side of VERSION. -/
def State.side (s : State) : Nat := matrixSize s.version.toNat

/-- The centres DRA and ASM draw for VERSION (R193, R194). -/
def State.centres (s : State) : List (Int × Int) :=
  alignCentres s.side (Config.params.alignOf s.version.toNat)

/-- The invariant of the system. -/
structure Inv (s : State) : Prop where
  /-- STATUS holds one of its four legal values, reserved bits 0 (10_state.md R24). -/
  status : legalStatus s.status = true
  /-- ERRCODE is a code of 60_exceptions.md R240 when STATUS.ERR = 1. -/
  faultCode : s.err = true → 1 ≤ s.errcode.toNat ∧ s.errcode.toNat ≤ 12
  /-- ERRCODE and ERRINFO are 0 when STATUS.ERR = 0 (10_state.md R25, R26). -/
  noFault : s.err = false → s.errcode = 0 ∧ s.errinfo = 0
  /-- IN, BS, OUT and PIX are in canonical form, with no entry outside the buffer. -/
  memory : Memory.wf s
  /-- MSIZE and DIM are the result of an ASM, or 0 before the first one (R38, R212). -/
  canvas : (s.msize = 0 ∧ s.dim = 0) ∨
    ((∃ v ∈ versions, s.msize.toNat = matrixSize v) ∧ 21 ≤ s.dim.toNat ∧ s.dim.toNat ≤ 142545)
  /-- Nothing is left to happen during a command when no command runs. -/
  idle : s.busy = false → s.meanwhile = []

/-- A pixel access of the host lies inside the attached grid; the other accesses name no pixel. -/
def HostAccess.onGrid (s : State) : HostAccess → Bool
  | .wrReg _ _ => true
  | .rdReg _ => true
  | .wrIn _ _ => true
  | .rdIn _ => true
  | .wrBs _ _ => true
  | .rdBs _ => true
  | .wrOut _ _ => true
  | .rdOut _ => true
  | .setPix x y _ => decide (x < s.gridW.toNat) && decide (y < s.gridH.toNat)
  | .getPix x y => decide (x < s.gridW.toNat) && decide (y < s.gridH.toNat)
  | .newGrid => true

/-- The bit of a module's colour (45_pattern_renderer.md R183). -/
def colourBit (dark : Bool) : Bool :=
  if dark then Config.params.darkBit else !Config.params.darkBit

/-- The colour a list of modules gives pixel `(px, py)` at scale `S` and border `B`: that of the last
module of the list that covers it, `none` when no module does (R181, R185). -/
def pixelColour (ms : List DrawnModule) (S B px py : Nat) : Option Bool :=
  (ms.reverse.find? fun m =>
    decide ((B : Int) + m.mx = (px / S : Nat)) && decide ((B : Int) + m.my = (py / S : Nat))).map
      DrawnModule.dark

/-- The modules of one finder that cover module `(mx, my)`: the offset inside the first block, in the
order of 45_pattern_renderer.md R188, that contains it. -/
def finderOffset (n : Nat) (mx my : Int) : Option (Nat × Nat) :=
  ([((0 : Int), (0 : Int)), (0, (n : Int) - 7), ((n : Int) - 7, 0)].find? fun o =>
    decide (o.1 ≤ mx) && decide (mx < o.1 + 7) && decide (o.2 ≤ my) && decide (my < o.2 + 7)).map
      fun o => ((mx - o.1).toNat, (my - o.2).toNat)

/-- A pixel after one drawing: the colour of the module that covers it, or what it held before. -/
def paintedPixel (ms : List DrawnModule) (S B px py : Nat) (old : Bool) : Bool :=
  match pixelColour ms S B px py with
  | some dark => colourBit dark
  | none => old

end Sys2Proof.Machine
end

