-- ==== Sys2Proof/Certificates/Slice0/Obligations.lean ====
section
/-! DEFINITION. The statements about the block, one definition each, from the numbered rules of the
spec. `Config.params` is any admissible configuration (log entry 1), so every statement holds for all
of them. A value named "free" or "draw" is one of the model's free values (log entry 2): no statement
rests on what it is. -/

open Sys2Proof Sys2Proof.Machine

/-! ### Encoding, issue, execution -/

/-- R96: the 18 legal words decode to their commands, every other word is illegal. -/
def Obligations.DecodeReadsTheOpcodeMap : Prop :=
  decode 0x00 = .ok .nop ∧ decode 0x01 = .ok (.sel .L) ∧ decode 0x11 = .ok (.sel .M) ∧
  decode 0x21 = .ok (.sel .Q) ∧ decode 0x31 = .ok (.sel .H) ∧ decode 0x02 = .ok .enc ∧
  decode 0x03 = .ok .fin ∧ decode 0x04 = .ok .ecc ∧ decode 0x05 = .ok .dec ∧
  decode 0x06 = .ok (.sym .L) ∧ decode 0x16 = .ok (.sym .M) ∧ decode 0x26 = .ok (.sym .Q) ∧
  decode 0x36 = .ok (.sym .H) ∧ decode 0x07 = .ok .drf ∧ decode 0x08 = .ok .dra ∧
  decode 0x09 = .ok .drt ∧ decode 0x0A = .ok .asm ∧ decode 0x0F = .ok .rst ∧
  ∀ w : Byte, w ∉ legalWords → ∃ r, decode w = .error r

/-- R91, R92: decoding and encoding are inverse to each other, on every command and every legal word. -/
def Obligations.DecodeAndEncodeAgree : Prop :=
  (∀ i : Instr, i.wf = true ∧ decode (encode i) = .ok i) ∧
  ∀ (w : Byte) (i : Instr), decode w = .ok i → encode i = w

/-- R288, step 2: with BUSY = 1 and nothing of the outside left to happen first, a step executes the
command in CMD; placing a word for the next step makes that step execute it. Model's
choice: the list `meanwhile` and the placing of a word (log entries 7 and 8). -/
def Obligations.StepExecutesIssuedCommand : Prop :=
  (∀ (s : State) (i : Instr), s.busy = true → s.meanwhile = [] → decode s.cmd = .ok i →
    step s = exec i s) ∧
  ∀ (s : State) (i : Instr) (nbits : Nat),
    step (s.withFetchWord nbits (encode i).toNat) =
      exec i { s with cmd := encode i, status := 0b001, errcode := 0, errinfo := 0, meanwhile := [] }

/-- R23, R288 step 1: a host write of CMD at BUSY = 0 stores the word, sets BUSY and clears the old
report; nothing else changes. Model's choice: the lists of the outside's
events (log entries 6 and 8). -/
def Obligations.CmdWriteIssuesCommand : Prop :=
  ∀ (s : State) (w : Byte) (rest : List HostEvent) (m : List BusyEvent), s.busy = false →
    (s.host = .access (.wrReg 0 w.toNat) :: rest →
      step s = .next { s with
        cmd := w, status := 0b001, errcode := 0, errinfo := 0, host := rest, meanwhile := [] }) ∧
    (s.host = .issue w m :: rest →
      step s = .next { s with
        cmd := w, status := 0b001, errcode := 0, errinfo := 0, host := rest, meanwhile := m })

/-- R95: which words are illegal, and that an illegal word raises IllegalCommand with the word and
changes nothing else. -/
def Obligations.IllegalWordRaisesIllegalCommand : Prop :=
  (∀ w : Byte, w ∉ legalWords ↔
    w.extractLsb' 6 2 ≠ 0 ∨ w.extractLsb' 0 4 ∈ [(0xB : BitVec 4), 0xC, 0xD, 0xE] ∨
      (w.extractLsb' 4 2 ≠ 0 ∧ w.extractLsb' 0 4 ∉ [(0x1 : BitVec 4), 0x6])) ∧
  ∀ s : State, s.busy = true → s.meanwhile = [] → s.cmd ∉ legalWords →
    step s = .next (s.endsInFault 6 s.cmd.toNat)

/-- R281: the block executes nothing after reset, and an idle block with an idle host stays as it
is. Model's choice: an idle system answers its own state (log entry 6). -/
def Obligations.IdleBlockExecutesNothing : Prop :=
  step State.reset = .next State.reset ∧
  ∀ s : State, s.busy = false → s.host = [] → step s = .next s

/-! ### Completion and faults -/

/-- R24, R255, R256, R291: every command ends, with DONE = 1, BUSY = 0 and either no fault and a clear
report, or a fault with a code of the table. -/
def Obligations.EveryCommandCompletes : Prop :=
  ∀ (i : Instr) (s : State), ∃ t, exec i s = .next t ∧
    ((t.status = 0b010 ∧ t.errcode = 0 ∧ t.errinfo = 0) ∨
      (t.status = 0b110 ∧ 1 ≤ t.errcode.toNat ∧ t.errcode.toNat ≤ 12))

/-- R253: a command that raises a fault changes nothing but STATUS, ERRCODE and ERRINFO. -/
def Obligations.FaultsArePrecise : Prop :=
  ∀ (i : Instr) (s t : State), exec i s = .next t → t.status = 0b110 →
    t = { s with status := t.status, errcode := t.errcode, errinfo := t.errinfo }

/-- R250: which fault each command reports, the first check of its row deciding, with the codes and
information values of R240. -/
def Obligations.ChecksInOrder : Prop :=
  (∀ s : State, s.cmd ∉ legalWords → ∃ t, runCommand s = .next t ∧
    t.report = (0b110, 6, BitVec.ofNat 32 s.cmd.toNat)) ∧
  (∀ s : State, ∃ t, exec .nop s = .next t ∧ t.report = (0b010, 0, 0)) ∧
  (∀ s : State, ∃ t, exec .rst s = .next t ∧ t.report = (0b010, 0, 0)) ∧
  (∀ (s : State) (r : Tier), ∃ t, exec (.sel r) s = .next t ∧ t.report =
    if Config.params.capOf 8 r < s.bslen.toNat then (0b110, 1, BitVec.ofNat 32 s.bslen.toNat)
    else (0b010, 0, 0)) ∧
  (∀ s : State, ∃ t, exec .enc s = .next t ∧ t.report =
    (if 255 < s.len.toNat then (0b110, 2, BitVec.ofNat 32 s.len.toNat)
    else match firstUnsupported s.inputString with
      | some i => (0b110, 3, BitVec.ofNat 32 i)
      | none => (0b010, 0, 0) : BitVec 8 × BitVec 8 × BitVec 32)) ∧
  (∀ s : State, ∃ t, exec .fin s = .next t ∧ t.report =
    if Config.params.bsMax < s.bslen.toNat then (0b110, 11, BitVec.ofNat 32 s.bslen.toNat)
    else if s.target.toNat < s.bslen.toNat then (0b110, 10, BitVec.ofNat 32 s.bslen.toNat)
    else if Config.params.bsMax < finishedLength s.bslen.toNat s.target.toNat then
      (0b110, 11, BitVec.ofNat 32 (finishedLength s.bslen.toNat s.target.toNat))
    else (0b010, 0, 0)) ∧
  (∀ s : State, ∃ t, exec .ecc s = .next t ∧ t.report =
    if Config.params.bsMax < s.bslen.toNat then (0b110, 11, BitVec.ofNat 32 s.bslen.toNat)
    else if s.bslen.toNat % 8 ≠ 0 then (0b110, 8, BitVec.ofNat 32 s.bslen.toNat)
    else if 248 < s.bslen.toNat / 8 then (0b110, 12, BitVec.ofNat 32 (s.bslen.toNat / 8))
    else (0b010, 0, 0)) ∧
  (∀ s : State, ∃ t, exec .dec s = .next t ∧ t.report =
    if Config.params.bsMax < s.bslen.toNat then (0b110, 11, BitVec.ofNat 32 s.bslen.toNat)
    else if s.bslen.toNat < 4 then (0b110, 9, BitVec.ofNat 32 s.bslen.toNat)
    else if s.field 0 4 ≠ Config.params.modeByte.toNat then
      (0b110, 4, BitVec.ofNat 32 (s.field 0 4))
    else if s.bslen.toNat < 12 then (0b110, 9, BitVec.ofNat 32 s.bslen.toNat)
    else if s.bslen.toNat < 12 + 8 * s.field 4 8 then (0b110, 9, BitVec.ofNat 32 s.bslen.toNat)
    else (0b010, 0, 0)) ∧
  (∀ (s : State) (r : Tier), ∃ t, exec (.sym r) s = .next t ∧ t.report =
    (if 255 < s.len.toNat then (0b110, 2, BitVec.ofNat 32 s.len.toNat)
    else match firstUnsupported s.inputString with
      | some i => (0b110, 3, BitVec.ofNat 32 i)
      | none => match choose Config.params r (12 + 8 * s.len.toNat) with
        | none => (0b110, 1, BitVec.ofNat 32 (12 + 8 * s.len.toNat))
        | some v =>
          if Config.params.bsMax <
              finishedLength (12 + 8 * s.len.toNat) (Config.params.capOf v r) then
            (0b110, 11, BitVec.ofNat 32
              (finishedLength (12 + 8 * s.len.toNat) (Config.params.capOf v r)))
          else if 248 < finishedLength (12 + 8 * s.len.toNat) (Config.params.capOf v r) / 8 then
            (0b110, 12, BitVec.ofNat 32
              (finishedLength (12 + 8 * s.len.toNat) (Config.params.capOf v r) / 8))
          else (0b010, 0, 0) : BitVec 8 × BitVec 8 × BitVec 32)) ∧
  (∀ (s : State) (p : Instr × (Nat → List DrawnModule)),
    p ∈ [(.drf, finderModules), (.dra, alignModules Config.params s.version.toNat),
      (.drt, timingModules)] →
    ∃ t, exec p.1 s = .next t ∧ t.report =
      if s.version.toNat < 1 ∨ 8 < s.version.toNat then (0b110, 7, 7)
      else if s.scale.toNat = 0 then (0b110, 7, 9)
      else if (writeList Config.params s.scale.toNat s.border.toNat (p.2 s.side)).all
          (PixWrite.inside s.gridW.toNat s.gridH.toNat) = false then (0b110, 5, 0)
      else (0b010, 0, 0)) ∧
  (∀ s : State, ∃ t, exec .asm s = .next t ∧ t.report =
    if s.version.toNat < 1 ∨ 8 < s.version.toNat then (0b110, 7, 7)
    else if s.scale.toNat = 0 then (0b110, 7, 9)
    else if (writeList Config.params s.scale.toNat s.border.toNat
        (symbolModules Config.params s.version.toNat s.side)).all
        (PixWrite.inside ((s.side + 2 * s.border.toNat) * s.scale.toNat)
          ((s.side + 2 * s.border.toNat) * s.scale.toNat)) = false then (0b110, 5, 0)
    else (0b010, 0, 0))

/-- Only the host stops the machine: a step that answers no next state is a forbidden access during a
command, or an access that names no entry, no pixel or no value of its register. The
three stops are the model's choice (log entries 9, 10 and 11). -/
def Obligations.OnlyTheHostStopsTheMachine : Prop :=
  ∀ s : State, (∃ t, step s = .next t) ∨
    (s.busy = true ∧ ∃ a rest, s.meanwhile = .access a :: rest ∧ a ≠ .rdReg 1) ∨
    (s.busy = false ∧ ∃ a rest, s.host = .access a :: rest ∧
      (a.wf Config.params.bsMax = false ∨ a.onGrid s = false))

/-! ### The system commands -/

/-- R228: NOP does nothing but clear the report. -/
def Obligations.NopOnlyClearsTheReport : Prop :=
  decode 0x00 = .ok .nop ∧ ∀ s : State, exec .nop s = .next s.endsClean

/-- R229: RST brings every register but CMD and STATUS to its reset value, leaves IN, BS and OUT
unspecified (each entry a free value of a fresh draw) and does not touch PIX. The draws are the
model's choice (log entry 2). -/
def Obligations.RstRestoresTheRegisters : Prop :=
  decode 0x0F = .ok .rst ∧ ∀ s : State, ∃ t, exec .rst s = .next t ∧
    t.cmd = s.cmd ∧ t.status = 0b010 ∧ t.errcode = 0 ∧ t.errinfo = 0 ∧ t.len = 0 ∧ t.bslen = 0 ∧
    t.target = 0 ∧ t.version = 0 ∧ t.outlen = 0 ∧ t.scale = 0 ∧ t.border = 0 ∧ t.msize = 0 ∧
    t.dim = 0 ∧ t.gridW = 0 ∧ t.gridH = 0 ∧ t.pix = s.pix ∧
    (∀ i, t.readIn i = Config.freeIn s.free i ∧ t.readBs i = Config.freeBs s.free i ∧
      t.readOut i = Config.freeOut s.free i) ∧
    t.free = s.free + 1 ∧ t.readData = s.readData ∧ t.host = s.host ∧ t.meanwhile = s.meanwhile

/-! ### The VersionSelector -/

/-- R121: SEL t takes the least version whose capacity holds BSLEN, and CapacityExceeded is raised
exactly above the capacity of version 8. -/
def Obligations.SelSelectsLeastVersion : Prop :=
  ∀ (r : Tier) (s : State),
    (∀ v ∈ versions, s.bslen.toNat ≤ Config.params.capOf v r →
      (∀ u ∈ versions, u < v → Config.params.capOf u r < s.bslen.toNat) →
      exec (.sel r) s = .next (State.endsClean { s with
        version := BitVec.ofNat 8 v, target := BitVec.ofNat 16 (Config.params.capOf v r) })) ∧
    (Config.params.capOf 8 r < s.bslen.toNat →
      exec (.sel r) s = .next (s.endsInFault 1 s.bslen.toNat))

/-- R123: boundary fit, overflow at tier H, leastness, monotony, and a TARGET no FIN can find too
small. -/
def Obligations.SelectorLaws : Prop :=
  (∀ (r : Tier) (s : State), ∀ v ∈ versions, s.bslen.toNat = Config.params.capOf v r →
    ∃ t, exec (.sel r) s = .next t ∧ t.status = 0b010 ∧ t.version.toNat = v) ∧
  (∀ s : State, 641 ≤ s.bslen.toNat →
    exec (.sel .H) s = .next (s.endsInFault 1 s.bslen.toNat)) ∧
  (∀ (r : Tier) (s t : State), exec (.sel r) s = .next t → t.status = 0b010 →
    t.version.toNat ∈ versions ∧ s.bslen.toNat ≤ Config.params.capOf t.version.toNat r ∧
    ∀ u ∈ versions, u < t.version.toNat → Config.params.capOf u r < s.bslen.toNat) ∧
  (∀ (r : Tier) (s s' t t' : State), s.bslen.toNat ≤ s'.bslen.toNat →
    exec (.sel r) s = .next t → t.status = 0b010 → exec (.sel r) s' = .next t' →
    t'.status = 0b010 → t.version.toNat ≤ t'.version.toNat) ∧
  (∀ (r : Tier) (s t u : State), exec (.sel r) s = .next t → t.status = 0b010 →
    s.bslen.toNat ≤ t.target.toNat ∧ (exec .fin t = .next u → u.errcode ≠ 10))

/-! ### The ByteModeEncoder -/

/-- R132: ENC writes mode indicator, count and payload, most significant bit first, at the stream
indices of the layout table, and BSLEN. The draw counter is the model's (log entry 2). -/
def Obligations.EncWritesByteModeStream : Prop :=
  ∀ s : State, s.Admitted →
    ∃ t, exec .enc s = .next t ∧
      t = State.endsClean { s with
        bs := t.bs, bslen := BitVec.ofNat 16 (12 + 8 * s.len.toNat), free := s.free + 1 } ∧
      t.bslen.toNat = 12 + 8 * s.len.toNat ∧
      (∀ j < 4, t.readBs j = Config.params.modeByte.getMsbD j) ∧
      (∀ j < 8, t.readBs (4 + j) = (BitVec.ofNat 8 s.len.toNat).getMsbD j) ∧
      ∀ i < s.len.toNat, ∀ j < 8,
        t.readBs (12 + 8 * i + j) = (BitVec.ofNat 8 (s.readIn i).toNat).getMsbD j

/-- R133: LEN above 255 makes ENC and SYM raise LengthOverflow, whatever the characters are; no smaller
LEN does. -/
def Obligations.LengthOverflowRaised : Prop :=
  (∀ s : State, 255 < s.len.toNat →
    exec .enc s = .next (s.endsInFault 2 s.len.toNat) ∧
    ∀ r, exec (.sym r) s = .next (s.endsInFault 2 s.len.toNat)) ∧
  ∀ s t : State, s.len.toNat ≤ 255 →
    (exec .enc s = .next t → t.errcode ≠ 2) ∧ ∀ r, exec (.sym r) s = .next t → t.errcode ≠ 2

/-- R134: a code point above 255 makes ENC and SYM raise UnsupportedCharacter with the lowest such
index. -/
def Obligations.UnsupportedCharacterRaised : Prop :=
  ∀ (s : State) (i : Nat), s.len.toNat ≤ 255 → i < s.len.toNat → 255 < (s.readIn i).toNat →
    (∀ j < i, (s.readIn j).toNat ≤ 255) →
    exec .enc s = .next (s.endsInFault 3 i) ∧
    ∀ r, exec (.sym r) s = .next (s.endsInFault 3 i)

/-- R135 (b): DEC after ENC gives the string back. -/
def Obligations.DecodeUndoesEncode : Prop :=
  ∀ s : State, s.Admitted → ∃ t u, exec .enc s = .next t ∧ exec .dec t = .next u ∧
    u.status = 0b010 ∧ u.outlen.toNat = s.len.toNat ∧
    ∀ i < s.len.toNat, (u.readOut i).toNat = (s.readIn i).toNat

/-- R176 (a), R135 (c): DEC gives the string back after FIN, and after FIN and ECC, too, whatever
TARGET the host wrote in between. -/
def Obligations.DecodeIgnoresWhatFollowsThePayload : Prop :=
  ∀ (s t u v : State) (T : BitVec 16), s.Admitted → exec .enc s = .next t →
    exec .fin { t with target := T } = .next u → u.status = 0b010 →
    (∃ d, exec .dec u = .next d ∧ d.status = 0b010 ∧ d.outlen.toNat = s.len.toNat ∧
      ∀ i < s.len.toNat, (d.readOut i).toNat = (s.readIn i).toNat) ∧
    (exec .ecc u = .next v → v.status = 0b010 →
      ∃ d, exec .dec v = .next d ∧ d.status = 0b010 ∧ d.outlen.toNat = s.len.toNat ∧
        ∀ i < s.len.toNat, (d.readOut i).toNat = (s.readIn i).toNat)

/-! ### The BitStreamFinisher -/

/-- R141, R148: FIN keeps the stream, appends zeros up to `L2` and then the bytes `0xEC`, `0x11` in
turn up to `L3`, with `L1`, `L2`, `L3` of R144, and writes no bit beyond. -/
def Obligations.FinAppendsZerosAndFillBytes : Prop :=
  ∀ (s : State) (L1 L2 L3 : Nat), s.bslen.toNat ≤ Config.params.bsMax →
    s.bslen.toNat ≤ s.target.toNat →
    L1 = s.bslen.toNat + min 4 (s.target.toNat - s.bslen.toNat) → L2 = (L1 + 7) / 8 * 8 →
    L3 = max L2 (8 * (s.target.toNat / 8)) → L3 ≤ Config.params.bsMax →
    ∃ t, exec .fin s = .next t ∧
      t = State.endsClean { s with bs := t.bs, bslen := BitVec.ofNat 16 L3 } ∧
      t.bslen.toNat = L3 ∧
      (∀ j < s.bslen.toNat, t.readBs j = s.readBs j) ∧
      (∀ j, s.bslen.toNat ≤ j → j < L2 → t.readBs j = false) ∧
      (∀ j, L2 ≤ j → j < L3 → t.readBs j =
        if (j - L2) / 8 % 2 = 0 then (0xEC : Byte).getMsbD ((j - L2) % 8)
        else (0x11 : Byte).getMsbD ((j - L2) % 8)) ∧
      ∀ j, L3 ≤ j → t.readBs j = s.readBs j

/-- R142, R143: a target below the stream raises TargetTooSmall, a finished length that does not fit BS
raises BufferOverflow with that length, which no target up to `BS_MAX - 7` does. A BSLEN above `BS_MAX`
raises BufferOverflow first, with BSLEN: said for every configuration, since `Config.params` may have
`BS_MAX = 65535`. -/
def Obligations.FinRefusesWhatDoesNotFit : Prop :=
  (∀ (P : Params) (s : State), P.bsMax < s.bslen.toNat →
    finCmd P s = .error (.bufferOverflow s.bslen.toNat)) ∧
  ∀ s : State, s.bslen.toNat ≤ Config.params.bsMax →
    (s.target.toNat < s.bslen.toNat → exec .fin s = .next (s.endsInFault 10 s.bslen.toNat)) ∧
    (s.bslen.toNat ≤ s.target.toNat →
      Config.params.bsMax < finishedLength s.bslen.toNat s.target.toNat →
      exec .fin s = .next (s.endsInFault 11 (finishedLength s.bslen.toNat s.target.toNat))) ∧
    (s.bslen.toNat ≤ s.target.toNat → s.target.toNat + 7 ≤ Config.params.bsMax →
      finishedLength s.bslen.toNat s.target.toNat ≤ Config.params.bsMax)

/-- R145, R146: after FIN without a fault BSLEN is a multiple of 8, equals an aligned target, and is 1
to 7 bits short of or beyond an unaligned one, exactly as the three cases say. -/
def Obligations.FinishedLengthCases : Prop :=
  ∀ s t : State, exec .fin s = .next t → t.status = 0b010 →
    t.bslen.toNat % 8 = 0 ∧
    (s.target.toNat % 8 = 0 → t.bslen.toNat = s.target.toNat) ∧
    (s.target.toNat % 8 ≠ 0 →
      s.bslen.toNat + min 4 (s.target.toNat - s.bslen.toNat) ≤ 8 * (s.target.toNat / 8) →
      t.bslen.toNat = 8 * (s.target.toNat / 8)) ∧
    (s.target.toNat % 8 ≠ 0 →
      8 * (s.target.toNat / 8) < s.bslen.toNat + min 4 (s.target.toNat - s.bslen.toNat) →
      t.bslen.toNat = 8 * (s.target.toNat / 8) + 8) ∧
    s.target.toNat ≤ t.bslen.toNat + 7 ∧ t.bslen.toNat ≤ s.target.toNat + 7

/-! ### GF(256) and the ErrorCorrectionEncoder -/

/-- R153: the laws of multiplication, and its products under the default field polynomial. -/
def Obligations.GfMulLaws : Prop :=
  (∀ (poly : BitVec 9) (a b d : Byte),
    gfMul poly a b = gfMul poly b a ∧
    gfMul poly (gfMul poly a b) d = gfMul poly a (gfMul poly b d) ∧
    gfMul poly a (b ^^^ d) = gfMul poly a b ^^^ gfMul poly a d ∧
    gfMul poly a 0 = 0 ∧ gfMul poly a 1 = a) ∧
  gfMul 0x11D 0x02 0x80 = 0x1D ∧ gfMul 0x11D 0x80 0x80 = 0x13 ∧ gfMul 0x11D 0x53 0xCA = 0x8F ∧
    gfMul 0x11D 0xFF 0xFF = 0xE2 ∧ gfMul 0x11D 3 7 = 9 ∧ gfMul 0x11D 0x02 0x8E = 1

/-- R151: under the configured field polynomial every non-zero element has an inverse. -/
def Obligations.NonZeroElementsHaveInverses : Prop :=
  ∀ a : Byte, a ≠ 0 → ∃ b : Byte, gfMul Config.params.gfPoly a b = 1

/-- R156: the data followed by the redundancy is a multiple of the generator polynomial: there are
quotient coefficients `q[0], q[1], …`, as many as data bytes, whose product with the generator has
exactly these bytes as coefficients, highest degree first. -/
def Obligations.RedundancyIsTheRemainder : Prop :=
  ∀ d : List Byte, ∃ q : List Byte, q.length = d.length ∧
    (rsRemainder Config.params d).length = 7 ∧
    ∀ m < d.length + 7,
      (d ++ rsRemainder Config.params d)[m]? =
        some (((List.range d.length).map fun i =>
          if i ≤ m ∧ m - i ≤ 7 then
            gfMul Config.params.gfPoly ((Config.params.rsGen[m - i]?).getD 0) ((q[i]?).getD 0)
          else 0).foldl (fun x y => x ^^^ y) 0)

/-- R161 (c), (e), (f): the redundancy is linear, leading zero bytes do not change it, and one byte
gives the multiples of the generator. -/
def Obligations.RedundancyIsLinear : Prop :=
  (∀ d e : List Byte, d.length = e.length →
    rsRemainder Config.params (List.zipWith (fun x y => x ^^^ y) d e) =
      List.zipWith (fun x y => x ^^^ y) (rsRemainder Config.params d)
        (rsRemainder Config.params e)) ∧
  (∀ n, rsRemainder Config.params (List.replicate n 0) = List.replicate 7 0) ∧
  (∀ d, rsRemainder Config.params (0 :: d) = rsRemainder Config.params d) ∧
  ∀ v, rsRemainder Config.params [v] =
    Config.params.rsGen.tail.map fun g => gfMul Config.params.gfPoly g v

/-- R161 (d): the redundancy of data followed by its redundancy is zero. -/
def Obligations.CodewordHasZeroRedundancy : Prop :=
  ∀ d : List Byte,
    rsRemainder Config.params (d ++ rsRemainder Config.params d) = List.replicate 7 0

/-- R158: ECC keeps the stream, appends the seven redundancy bytes of its bytes, first byte first and
most significant bit first, and writes no bit beyond. -/
def Obligations.EccAppendsRedundancy : Prop :=
  ∀ (s : State) (k : Nat), s.bslen.toNat = 8 * k → k ≤ 248 →
    ∃ t, exec .ecc s = .next t ∧
      t = State.endsClean { s with bs := t.bs, bslen := BitVec.ofNat 16 (8 * k + 56) } ∧
      t.bslen.toNat = s.bslen.toNat + 56 ∧
      (∀ j < s.bslen.toNat, t.readBs j = s.readBs j) ∧
      (∀ j < 7, ∀ b < 8, t.readBs (8 * k + 8 * j + b) =
        (((rsRemainder Config.params ((List.range k).map fun m =>
          BitVec.ofNat 8 (s.field (8 * m) 8)))[j]?).getD 0).getMsbD b) ∧
      ∀ j, 8 * k + 56 ≤ j → t.readBs j = s.readBs j

/-- R159, R160: a stream that is no whole number of bytes raises StreamMisaligned, one of more than 248
bytes BlockTooLong; alignment is checked first. -/
def Obligations.EccRefusesWhatItCannotProtect : Prop :=
  ∀ s : State, s.bslen.toNat ≤ Config.params.bsMax →
    (s.bslen.toNat % 8 ≠ 0 → exec .ecc s = .next (s.endsInFault 8 s.bslen.toNat)) ∧
    (s.bslen.toNat % 8 = 0 → 248 < s.bslen.toNat / 8 →
      exec .ecc s = .next (s.endsInFault 12 (s.bslen.toNat / 8)))

/-- R162: the bits ECC appends depend on the stream alone, on no register but BSLEN. -/
def Obligations.EccDependsOnTheStreamOnly : Prop :=
  ∀ s s' t t' : State, s.bslen = s'.bslen → s.stream = s'.stream → exec .ecc s = .next t →
    exec .ecc s' = .next t' → t.report = t'.report ∧ t.bslen = t'.bslen ∧ t.stream = t'.stream

/-! ### The StreamDecoder -/

/-- R172: DEC reads the count and the payload and writes OUT and OUTLEN; BS and BSLEN stay. The draw
counter is the model's (log entry 2). -/
def Obligations.DecReadsThePayload : Prop :=
  ∀ (s : State) (N : Nat), s.bslen.toNat ≤ Config.params.bsMax →
    s.field 0 4 = Config.params.modeByte.toNat → s.field 4 8 = N → 12 + 8 * N ≤ s.bslen.toNat →
    ∃ t, exec .dec s = .next t ∧
      t = State.endsClean { s with
        out := t.out, outlen := BitVec.ofNat 8 N, free := s.free + 1 } ∧
      t.outlen.toNat = N ∧ ∀ i < N, (t.readOut i).toNat = s.field (12 + 8 * i) 8

/-- R173, R174: the faults of DEC on a stream that is in BS. -/
def Obligations.DecRefusesWhatItCannotRead : Prop :=
  ∀ s : State, s.bslen.toNat ≤ Config.params.bsMax →
    (s.bslen.toNat < 4 → exec .dec s = .next (s.endsInFault 9 s.bslen.toNat)) ∧
    (4 ≤ s.bslen.toNat → s.field 0 4 ≠ Config.params.modeByte.toNat →
      exec .dec s = .next (s.endsInFault 4 (s.field 0 4))) ∧
    (4 ≤ s.bslen.toNat → s.field 0 4 = Config.params.modeByte.toNat → s.bslen.toNat < 12 →
      exec .dec s = .next (s.endsInFault 9 s.bslen.toNat)) ∧
    (12 ≤ s.bslen.toNat → s.field 0 4 = Config.params.modeByte.toNat →
      s.bslen.toNat < 12 + 8 * s.field 4 8 →
      exec .dec s = .next (s.endsInFault 9 s.bslen.toNat))

/-- R176 (b): what DEC answers depends on the bits it reads alone. -/
def Obligations.DecDependsOnWhatItReads : Prop :=
  ∀ s s' t t' : State, s.bslen = s'.bslen →
    (∀ j < 12 + 8 * s.field 4 8, s.readBs j = s'.readBs j) → exec .dec s = .next t →
    exec .dec s' = .next t' → t.report = t'.report ∧
      (t.status = 0b010 → t.outlen = t'.outlen ∧
        ∀ i < t.outlen.toNat, t.readOut i = t'.readOut i)

/-! ### The encode pipeline -/

/-- R221, R222: SYM t selects the least version for `12 + 8 * LEN` bits, and leaves the finished stream
with its redundancy, the version and the capacity as TARGET. The draw counter is the model's (log
entry 2). -/
def Obligations.SymMakesSymbolData : Prop :=
  ∀ (s : State) (r : Tier) (v L3 : Nat), s.Admitted → v ∈ versions →
    12 + 8 * s.len.toNat ≤ Config.params.capOf v r →
    (∀ u ∈ versions, u < v → Config.params.capOf u r < 12 + 8 * s.len.toNat) →
    L3 = finishedLength (12 + 8 * s.len.toNat) (Config.params.capOf v r) → L3 / 8 ≤ 248 →
    ∃ t, exec (.sym r) s = .next t ∧
      t = State.endsClean { s with
        bs := t.bs, bslen := BitVec.ofNat 16 (L3 + 56), version := BitVec.ofNat 8 v
        target := BitVec.ofNat 16 (Config.params.capOf v r), free := s.free + 1 } ∧
      t.bslen.toNat = L3 + 56 ∧ t.bslen.toNat % 8 = 0 ∧
      (Config.params.capOf v r % 8 = 0 → t.bslen.toNat = t.target.toNat + 56) ∧
      t.stream.take (12 + 8 * s.len.toNat) =
        byteModeStream Config.params.modeByte (s.inputString.map fun x => x.setWidth 8) ∧
      t.stream.take L3 = finishBits (Config.params.capOf v r)
        (byteModeStream Config.params.modeByte (s.inputString.map fun x => x.setWidth 8)) ∧
      t.stream.drop L3 =
        (rsRemainder Config.params (bytes (t.stream.take L3))).flatMap bin8 ∧
      ∃ d, exec .dec t = .next d ∧ d.status = 0b010 ∧ d.outlen.toNat = s.len.toNat ∧
        ∀ i < s.len.toNat, (d.readOut i).toNat = (s.readIn i).toNat

/-- R223: SYM t without a fault leaves BS, BSLEN, VERSION and TARGET exactly as ENC, SEL t, FIN, ECC
leave them; when SYM t faults, that sequence faults at some command with the same report. -/
def Obligations.SymEqualsTheCommandSequence : Prop :=
  ∀ (s e : State) (r : Tier), exec (.sym r) s = .next e →
    (e.status = 0b010 → ∃ a b d f, exec .enc s = .next a ∧ a.status = 0b010 ∧
      exec (.sel r) a = .next b ∧ b.status = 0b010 ∧ exec .fin b = .next d ∧ d.status = 0b010 ∧
      exec .ecc d = .next f ∧ f.status = 0b010 ∧
      e.bslen = f.bslen ∧ e.version = f.version ∧ e.target = f.target ∧ e.stream = f.stream) ∧
    (e.status = 0b110 → ∃ x, x.report = e.report ∧
      (exec .enc s = .next x ∨
        ∃ a, exec .enc s = .next a ∧ a.status = 0b010 ∧
          (exec (.sel r) a = .next x ∨
            ∃ b, exec (.sel r) a = .next b ∧ b.status = 0b010 ∧
              (exec .fin b = .next x ∨
                ∃ d, exec .fin b = .next d ∧ d.status = 0b010 ∧ exec .ecc d = .next x))))

/-- R224: at tier H, 79 and more characters exceed every capacity, 78 do not, and no count of characters
gives 640 or 641 bits. -/
def Obligations.TierHOverflow : Prop :=
  ∀ s : State, s.Admitted →
    (12 + 8 * s.len.toNat ≠ 640 ∧ 12 + 8 * s.len.toNat ≠ 641) ∧
    (79 ≤ s.len.toNat → exec (.sym .H) s = .next (s.endsInFault 1 (12 + 8 * s.len.toNat))) ∧
    (s.len.toNat = 78 → ∃ t, exec (.sym .H) s = .next t ∧ t.errcode ≠ 1)

/-! ### The PatternRenderer -/

/-- R187, R192: the two truth tables. -/
def Obligations.PatternTruthTables : Prop :=
  ((List.range 7).map fun y => (List.range 7).map fun x => finderDark x y) =
    [[true, true, true, true, true, true, true],
     [true, false, false, false, false, false, true],
     [true, false, true, true, true, false, true],
     [true, false, true, true, true, false, true],
     [true, false, true, true, true, false, true],
     [true, false, false, false, false, false, true],
     [true, true, true, true, true, true, true]] ∧
  (alignOffsets.map fun y => alignOffsets.map fun x => alignDark x y) =
    [[true, true, true, true, true],
     [true, false, false, false, true],
     [true, false, true, false, true],
     [true, false, false, false, true],
     [true, true, true, true, true]]

/-- R193, R194, R195: a pair is drawn when both coordinates are in the list and the point is in none of
the three corner regions; for version 7 that leaves six centres, visited in this order. -/
def Obligations.DrawnCentres : Prop :=
  (∀ (n : Nat) (A : List Int) (cx cy : Int),
    (cx, cy) ∈ alignCentres n A ↔ cx ∈ A ∧ cy ∈ A ∧
      ¬((0 ≤ cx ∧ cx ≤ 7) ∧ 0 ≤ cy ∧ cy ≤ 7) ∧
      ¬((0 ≤ cx ∧ cx ≤ 7) ∧ (n : Int) - 8 ≤ cy ∧ cy ≤ (n : Int) - 1) ∧
      ¬(((n : Int) - 8 ≤ cx ∧ cx ≤ (n : Int) - 1) ∧ 0 ≤ cy ∧ cy ≤ 7)) ∧
  alignCentres 45 (Config.params.alignOf 7) =
    [(6, 22), (22, 6), (22, 22), (22, 38), (38, 22), (38, 38)]

/-- R199: for every version, the timing lines stay between modules 6 and `n - 7`, a module of theirs that
lies in a finder is dark in both, and there are exactly three such modules. -/
def Obligations.TimingAgreesWithFinders : Prop :=
  ∀ v ∈ versions,
    (∀ m ∈ timingModules (matrixSize v),
      (6 ≤ m.mx ∧ m.mx ≤ (matrixSize v : Int) - 7 ∧ 6 ≤ m.my ∧ m.my ≤ (matrixSize v : Int) - 7) ∧
      ∀ x y, finderOffset (matrixSize v) m.mx m.my = some (x, y) →
        m.dark = true ∧ finderDark x y = true) ∧
    ∀ mx my : Int, ((∃ m ∈ timingModules (matrixSize v), m.mx = mx ∧ m.my = my) ∧
        (finderOffset (matrixSize v) mx my).isSome = true) ↔
      (mx, my) = (6, 6) ∨ (mx, my) = ((matrixSize v : Int) - 7, 6) ∨
        (mx, my) = (6, (matrixSize v : Int) - 7)

/-- R184: a bad VERSION, then SCALE = 0, make every drawing command raise BadParameter with the
register's number. -/
def Obligations.BadParameterRaised : Prop :=
  ∀ (s : State) (i : Instr), i ∈ [Instr.drf, .dra, .drt, .asm] →
    (s.version.toNat = 0 ∨ 8 < s.version.toNat → exec i s = .next (s.endsInFault 7 7)) ∧
    (1 ≤ s.version.toNat → s.version.toNat ≤ 8 → s.scale.toNat = 0 →
      exec i s = .next (s.endsInFault 7 9))

/-- R188, R190: DRF draws the three finders, each module as a block of SCALE by SCALE pixels, and
nothing else; a grid too small for them gets no pixel at all. -/
def Obligations.DrfDrawsTheFinders : Prop :=
  ∀ s : State, s.Drawable →
    ((s.border.toNat + s.side) * s.scale.toNat ≤ s.gridW.toNat →
      (s.border.toNat + s.side) * s.scale.toNat ≤ s.gridH.toNat →
      ∃ t, exec .drf s = .next t ∧ t = State.endsClean { s with pix := t.pix } ∧
        ∀ px py, px < 2 ^ 32 → t.pix.get px py =
          match finderOffset s.side ((px / s.scale.toNat : Nat) - (s.border.toNat : Int))
              ((py / s.scale.toNat : Nat) - (s.border.toNat : Int)) with
          | some (x, y) => colourBit (finderDark x y)
          | none => s.pix.get px py) ∧
    (s.gridW.toNat < (s.border.toNat + s.side) * s.scale.toNat ∨
      s.gridH.toNat < (s.border.toNat + s.side) * s.scale.toNat →
      exec .drf s = .next (s.endsInFault 5 0))

/-- R196: DRA draws the 25 modules of every drawn centre, later centres over earlier ones, and nothing
else; below version 2 nothing on any grid; a pattern that leaves the grid makes it draw nothing. -/
def Obligations.DraDrawsTheAlignmentPatterns : Prop :=
  ∀ s : State, s.Drawable →
    ((∀ p ∈ s.centres, 0 ≤ (s.border.toNat : Int) + p.1 - 2 ∧
        ((s.border.toNat : Int) + p.1 + 3) * s.scale.toNat ≤ s.gridW.toNat ∧
        0 ≤ (s.border.toNat : Int) + p.2 - 2 ∧
        ((s.border.toNat : Int) + p.2 + 3) * s.scale.toNat ≤ s.gridH.toNat) →
      ∃ t, exec .dra s = .next t ∧ t = State.endsClean { s with pix := t.pix } ∧
        ∀ px py, px < 2 ^ 32 → t.pix.get px py =
          paintedPixel (s.centres.flatMap fun p => alignAt p.1 p.2) s.scale.toNat s.border.toNat
            px py (s.pix.get px py)) ∧
    (s.version.toNat = 1 → exec .dra s = .next s.endsClean) ∧
    ((∃ p ∈ s.centres, (s.border.toNat : Int) + p.1 - 2 < 0 ∨
        (s.gridW.toNat : Int) < ((s.border.toNat : Int) + p.1 + 3) * s.scale.toNat ∨
        (s.border.toNat : Int) + p.2 - 2 < 0 ∨
        (s.gridH.toNat : Int) < ((s.border.toNat : Int) + p.2 + 3) * s.scale.toNat) →
      exec .dra s = .next (s.endsInFault 5 0))

/-- R198, R201: DRT draws row 6 and column 6 from module 6 to module `n - 7`, dark at even indices, and
nothing else; a grid too small for either line gets no pixel at all. -/
def Obligations.DrtDrawsTheTimingLines : Prop :=
  ∀ s : State, s.Drawable →
    ((s.border.toNat + s.side - 6) * s.scale.toNat ≤ s.gridW.toNat →
      (s.border.toNat + s.side - 6) * s.scale.toNat ≤ s.gridH.toNat →
      ∃ t, exec .drt s = .next t ∧ t = State.endsClean { s with pix := t.pix } ∧
        ∀ px py, px < 2 ^ 32 → t.pix.get px py =
          if py / s.scale.toNat = s.border.toNat + 6 ∧
              s.border.toNat + 6 ≤ px / s.scale.toNat ∧
              px / s.scale.toNat + 7 ≤ s.border.toNat + s.side then
            colourBit ((px / s.scale.toNat - s.border.toNat) % 2 == 0)
          else if px / s.scale.toNat = s.border.toNat + 6 ∧
              s.border.toNat + 6 ≤ py / s.scale.toNat ∧
              py / s.scale.toNat + 7 ≤ s.border.toNat + s.side then
            colourBit ((py / s.scale.toNat - s.border.toNat) % 2 == 0)
          else s.pix.get px py) ∧
    (s.gridW.toNat < (s.border.toNat + s.side - 6) * s.scale.toNat ∨
      s.gridH.toNat < (s.border.toNat + s.side - 6) * s.scale.toNat →
      exec .drt s = .next (s.endsInFault 5 0))

/-- R181, R185, R191: after a drawing command without a fault a pixel has the colour of the last module
of the command that covers it, `SCALE` by `SCALE` pixels for each module, and every pixel that no module
covers is as before. -/
def Obligations.DrawingPaintsItsModulesOnly : Prop :=
  ∀ (s t : State) (px py : Nat), t.status = 0b010 → px < 2 ^ 32 →
    (exec .drf s = .next t → t.pix.get px py =
      paintedPixel (finderModules s.side) s.scale.toNat s.border.toNat px py (s.pix.get px py)) ∧
    (exec .dra s = .next t → t.pix.get px py =
      paintedPixel (alignModules Config.params s.version.toNat s.side) s.scale.toNat
        s.border.toNat px py (s.pix.get px py)) ∧
    (exec .drt s = .next t → t.pix.get px py =
      paintedPixel (timingModules s.side) s.scale.toNat s.border.toNat px py (s.pix.get px py))

/-- R204: a drawing command issued again with unchanged registers leaves the grid unchanged. -/
def Obligations.RedrawingChangesNothing : Prop :=
  ∀ (s t : State) (i : Instr), i ∈ [Instr.drf, .dra, .drt] → exec i s = .next t →
    ∃ u, exec i t = .next u ∧ u.report = t.report ∧
      ∀ px py, px < 2 ^ 32 → u.pix.get px py = t.pix.get px py

/-! ### The SymbolAssembler -/

/-- R211, R212: ASM computes MSIZE and DIM, attaches a fresh canvas of that side and draws finders,
alignment patterns and timing lines on it in this order; undrawn pixels hold PIX_INIT. In every
configuration whose alignment patterns leave the canvas (`Config.params` need not be one) ASM raises
GridBoundsViolation. -/
def Obligations.AsmAssemblesTheSymbol : Prop :=
  ∀ (s : State) (dim : Nat), s.Drawable →
    dim = (s.side + 2 * s.border.toNat) * s.scale.toNat →
    ((∀ p ∈ s.centres, -(s.border.toNat : Int) ≤ p.1 - 2 ∧ p.1 + 2 < s.side + s.border.toNat ∧
        -(s.border.toNat : Int) ≤ p.2 - 2 ∧ p.2 + 2 < s.side + s.border.toNat) →
      ∃ t, exec .asm s = .next t ∧
        t = State.endsClean { s with
          msize := BitVec.ofNat 8 s.side, dim := BitVec.ofNat 32 dim
          gridW := BitVec.ofNat 32 dim, gridH := BitVec.ofNat 32 dim, pix := t.pix } ∧
        t.msize.toNat = s.side ∧ t.dim.toNat = dim ∧ t.gridW.toNat = dim ∧ t.gridH.toNat = dim ∧
        ∀ px py, px < dim → py < dim → t.pix.get px py =
          paintedPixel (finderModules s.side ++ (s.centres.flatMap fun p => alignAt p.1 p.2) ++
            timingModules s.side) s.scale.toNat s.border.toNat px py
            (Config.pixInit dim dim px py)) ∧
    ∀ P : Params,
      (∃ p ∈ alignCentres s.side (P.alignOf s.version.toNat), 2 ≤ s.version.toNat ∧
        (p.1 - 2 < -(s.border.toNat : Int) ∨ (s.side : Int) + s.border.toNat ≤ p.1 + 2 ∨
          p.2 - 2 < -(s.border.toNat : Int) ∨ (s.side : Int) + s.border.toNat ≤ p.2 + 2)) →
      asmCmd P s = .error .gridBoundsViolation

/-- R211 under the premise ALIGN_IN_RANGE of R44 for VERSION: ASM cannot leave its canvas. -/
def Obligations.AsmFitsWhenCentresAreInRange : Prop :=
  ∀ s : State, s.Drawable →
    (∀ x ∈ Config.params.alignOf s.version.toNat, 2 ≤ x ∧ x ≤ (s.side : Int) - 3) →
    ∃ t, exec .asm s = .next t ∧ t.status = 0b010

/-- R214: ASM leaves the grid that `construct` followed by DRF, DRA and DRT leaves. -/
def Obligations.AsmEqualsConstructThenDraw : Prop :=
  ∀ s t : State, exec .asm s = .next t → t.status = 0b010 →
    ∃ a b d, exec .drf { s with
        gridW := t.gridW, gridH := t.gridH
        pix := s.pix.construct t.dim.toNat t.dim.toNat } = .next a ∧ a.status = 0b010 ∧
      exec .dra a = .next b ∧ b.status = 0b010 ∧ exec .drt b = .next d ∧ d.status = 0b010 ∧
      d.pix = t.pix

/-- R215, R216: what ASM leaves depends on VERSION, SCALE and BORDER alone, not on the bit stream. -/
def Obligations.AsmIgnoresTheBitStream : Prop :=
  ∀ s s' t t' : State, s.version = s'.version → s.scale = s'.scale → s.border = s'.border →
    exec .asm s = .next t → exec .asm s' = .next t' →
    t.report = t'.report ∧ (t.status = 0b010 → t.msize = t'.msize ∧ t.dim = t'.dim ∧
      t.gridW = t'.gridW ∧ t.gridH = t'.gridH ∧ ∀ px py, t.pix.get px py = t'.pix.get px py)

/-! ### Frames -/

/-- R21, R94: a register changes only under the commands its row names, whether the command faults or
not; no command changes CMD, IN or what belongs to the host. -/
def Obligations.OnlyNamedCommandsWriteRegisters : Prop :=
  ∀ (i : Instr) (s t : State), exec i s = .next t →
    t.cmd = s.cmd ∧ t.readData = s.readData ∧ t.host = s.host ∧ t.meanwhile = s.meanwhile ∧
    (i ≠ .rst → t.len = s.len ∧ t.scale = s.scale ∧ t.border = s.border ∧ t.inBuf = s.inBuf) ∧
    (i ≠ .rst → i ≠ .enc → i ≠ .fin → i ≠ .ecc → (∀ r, i ≠ .sym r) →
      t.bslen = s.bslen ∧ t.bs = s.bs) ∧
    (i ≠ .rst → (∀ r, i ≠ .sel r) → (∀ r, i ≠ .sym r) →
      t.target = s.target ∧ t.version = s.version) ∧
    (i ≠ .rst → i ≠ .dec → t.outlen = s.outlen ∧ t.out = s.out) ∧
    (i ≠ .rst → i ≠ .asm →
      t.msize = s.msize ∧ t.dim = s.dim ∧ t.gridW = s.gridW ∧ t.gridH = s.gridH) ∧
    (i ≠ .drf → i ≠ .dra → i ≠ .drt → i ≠ .asm → t.pix = s.pix)

/-- The frame of the four commands that write BS: an entry of BS outside the stream they leave is as
before after FIN and ECC, the bits they keep are as before, and ENC and SYM write nothing else. -/
def Obligations.StreamCommandsFrame : Prop :=
  ∀ (s t : State) (j : Nat),
    (exec .fin s = .next t ∨ exec .ecc s = .next t →
      (j < s.bslen.toNat ∨ t.bslen.toNat ≤ j → t.readBs j = s.readBs j) ∧ t.free = s.free) ∧
    (exec .enc s = .next t →
      t = { s with
        bs := t.bs, bslen := t.bslen, free := t.free
        status := t.status, errcode := t.errcode, errinfo := t.errinfo }) ∧
    (∀ r, exec (.sym r) s = .next t →
      t = { s with
        bs := t.bs, bslen := t.bslen, version := t.version, target := t.target, free := t.free
        status := t.status, errcode := t.errcode, errinfo := t.errinfo })

/-! ### Reset and the invariant -/

/-- R280, R49: after the hardware reset all fifteen registers read 0 and no entry of IN, BS, OUT or PIX
has been written. What an unwritten entry reads as is the model's choice (log entries 2 and 4). -/
def Obligations.ResetClearsTheRegisters : Prop :=
  (∀ n, State.reset.readReg n = 0) ∧ State.reset.inBuf.cells = [] ∧ State.reset.bs.cells = [] ∧
    State.reset.out.cells = [] ∧ State.reset.pix.cells = []

/-- R280: a hardware reset, while the block is idle or while a command runs, brings every register to 0;
an idle block's grid is not touched, nor is it under a command that draws nothing; an abandoned DRF, DRA
or DRT leaves every pixel outside its own write list. Model's choice: what becomes of the outside's
leftover events, and which pixels are affected (log entry 12). -/
def Obligations.HardwareResetClearsTheRegisters : Prop :=
  (∀ (s : State) (rest : List HostEvent), s.busy = false → s.host = .hardReset :: rest →
    ∃ t, step s = .next t ∧ (∀ n, t.readReg n = 0) ∧ t.pix = s.pix ∧ t.host = s.meanwhile.map
      BusyEvent.whenIdle ++ rest ∧ t.meanwhile = []) ∧
  ∀ (s : State) (rest : List BusyEvent), s.busy = true → s.meanwhile = .hardReset :: rest →
    ∃ t, step s = .next t ∧ (∀ n, t.readReg n = 0) ∧ t.busy = false ∧
      t.host = rest.map BusyEvent.whenIdle ++ s.host ∧ t.meanwhile = [] ∧
      (s.cmd ∉ [(0x07 : Byte), 0x08, 0x09, 0x0A] → t.pix = s.pix) ∧
      ∀ px py, px < 2 ^ 32 →
        (s.cmd = 0x07 →
          pixelColour (finderModules s.side) s.scale.toNat s.border.toNat px py = none →
          t.pix.get px py = s.pix.get px py) ∧
        (s.cmd = 0x08 →
          pixelColour (alignModules Config.params s.version.toNat s.side) s.scale.toNat
            s.border.toNat px py = none →
          t.pix.get px py = s.pix.get px py) ∧
        (s.cmd = 0x09 →
          pixelColour (timingModules s.side) s.scale.toNat s.border.toNat px py = none →
          t.pix.get px py = s.pix.get px py)

/-- The invariant holds at reset. -/
def Obligations.ResetMeetsTheInvariant : Prop := Inv State.reset

/-- R24, R25, R26, R212 and the canonical form of memory: every step keeps the invariant, from every
state that meets it. -/
def Obligations.StepKeepsTheInvariant : Prop :=
  ∀ s t : State, Inv s → step s = .next t → Inv t

/-! ### The host -/

/-- R21, R22, 70 R293: a host write at BUSY = 0 of an RW register changes that register alone; of an RO
register, or of a number that names no register, nothing. The list of
the host's accesses is the model's (log entry 6). -/
def Obligations.HostWritesOneRegister : Prop :=
  ∀ (s : State) (rest : List HostEvent) (n v : Nat), s.busy = false →
    s.host = .access (.wrReg n v) :: rest →
    (n = 4 → v < 2 ^ 16 → step s = .next { s with host := rest, len := BitVec.ofNat 16 v }) ∧
    (n = 5 → v < 2 ^ 16 → step s = .next { s with host := rest, bslen := BitVec.ofNat 16 v }) ∧
    (n = 6 → v < 2 ^ 16 → step s = .next { s with host := rest, target := BitVec.ofNat 16 v }) ∧
    (n = 7 → v < 2 ^ 8 → step s = .next { s with host := rest, version := BitVec.ofNat 8 v }) ∧
    (n = 9 → v < 2 ^ 8 → step s = .next { s with host := rest, scale := BitVec.ofNat 8 v }) ∧
    (n = 10 → v < 2 ^ 8 → step s = .next { s with host := rest, border := BitVec.ofNat 8 v }) ∧
    (n = 13 → v < 2 ^ 32 → step s = .next { s with host := rest, gridW := BitVec.ofNat 32 v }) ∧
    (n = 14 → v < 2 ^ 32 → step s = .next { s with host := rest, gridH := BitVec.ofNat 32 v }) ∧
    (n ∈ [1, 2, 8, 11] → v < 2 ^ 8 → step s = .next { s with host := rest }) ∧
    (n ∈ [3, 12] → v < 2 ^ 32 → step s = .next { s with host := rest }) ∧
    (15 ≤ n → step s = .next { s with host := rest })

/-- R21, R69, R70: a host read returns the register, or the entry of IN, BS or OUT, or the pixel, 0 for
a number that names no register, and changes nothing else. `readData` and the list are the model's (log
entries 5 and 6). -/
def Obligations.HostReadsHaveNoSideEffect : Prop :=
  ∀ (s : State) (rest : List HostEvent), s.busy = false →
    (∀ n, s.host = .access (.rdReg n) :: rest →
      ∃ v : BitVec 32, step s = .next { s with host := rest, readData := v } ∧
        (n = 0 → v = s.cmd.setWidth 32) ∧ (n = 1 → v = s.status.setWidth 32) ∧
        (n = 2 → v = s.errcode.setWidth 32) ∧ (n = 3 → v = s.errinfo) ∧
        (n = 4 → v = s.len.setWidth 32) ∧ (n = 5 → v = s.bslen.setWidth 32) ∧
        (n = 6 → v = s.target.setWidth 32) ∧ (n = 7 → v = s.version.setWidth 32) ∧
        (n = 8 → v = s.outlen.setWidth 32) ∧ (n = 9 → v = s.scale.setWidth 32) ∧
        (n = 10 → v = s.border.setWidth 32) ∧ (n = 11 → v = s.msize.setWidth 32) ∧
        (n = 12 → v = s.dim) ∧ (n = 13 → v = s.gridW) ∧ (n = 14 → v = s.gridH) ∧
        (15 ≤ n → v = 0)) ∧
    (∀ i, i < 255 → s.host = .access (.rdIn i) :: rest →
      step s = .next { s with host := rest, readData := (s.readIn i).setWidth 32 }) ∧
    (∀ i, i < Config.params.bsMax → s.host = .access (.rdBs i) :: rest →
      step s = .next { s with host := rest, readData := if s.readBs i then 1 else 0 }) ∧
    (∀ i, i < 255 → s.host = .access (.rdOut i) :: rest →
      step s = .next { s with host := rest, readData := (s.readOut i).setWidth 32 }) ∧
    ∀ x y, x < s.gridW.toNat → y < s.gridH.toNat → s.host = .access (.getPix x y) :: rest →
      step s = .next { s with host := rest, readData := if s.pix.get x y then 1 else 0 }

/-- R60, R66, R74: a host write of an entry of IN, BS or PIX is what is read there afterwards, and every
other entry is as before. The list is the model's (log entry 6). -/
def Obligations.HostWritesOneEntry : Prop :=
  ∀ (s : State) (rest : List HostEvent), s.busy = false →
    (∀ i x, i < 255 → s.host = .access (.wrIn i x) :: rest →
      ∃ t, step s = .next t ∧ t = { s with host := rest, inBuf := t.inBuf } ∧
        ∀ j, t.readIn j = if j = i then x else s.readIn j) ∧
    (∀ i b, i < Config.params.bsMax → s.host = .access (.wrBs i b) :: rest →
      ∃ t, step s = .next t ∧ t = { s with host := rest, bs := t.bs } ∧
        ∀ j, t.readBs j = if j = i then b else s.readBs j) ∧
    (∀ x y b, x < s.gridW.toNat → y < s.gridH.toNat →
      s.host = .access (.setPix x y b) :: rest →
      ∃ t, step s = .next t ∧ t = { s with host := rest, pix := t.pix } ∧
        ∀ px py, px < 2 ^ 32 →
          t.pix.get px py = if px = x ∧ py = y then b else s.pix.get px py)

/-- 70 R290: while BUSY = 1 the host may read STATUS, and every other access is refused (the refusal is
the model's, log entry 9). -/
def Obligations.BusyHostReadsStatusOnly : Prop :=
  ∀ (s : State) (rest : List BusyEvent) (a : HostAccess), s.busy = true →
    s.meanwhile = .access a :: rest →
    (a = .rdReg 1 →
      step s = .next { s with meanwhile := rest, readData := s.status.setWidth 32 }) ∧
    (a ≠ .rdReg 1 → step s = .refused (.hostAccessWhileBusy a))
end

