-- ==== Sys2Proof/Laws/Bits.lean ====
section
/-! SUPPORT. Bits and bytes of a stream: lengths, and `val`, `bin8` and `bytes` as inverses (00_scope.md
R8). -/

namespace Sys2Proof.Machine

@[simp] theorem bin8_length (v : Byte) : (bin8 v).length = 8 := rfl

@[simp] theorem bits4_length (m : BitVec 4) : (bits4 m).length = 4 := rfl

@[simp] theorem zeros_length (n : Nat) : (zeros n).length = n := by simp [zeros]

theorem bin8_getElem? (v : Byte) {i : Nat} (h : i < 8) : (bin8 v)[i]? = some (v.getMsbD i) := by
  match i, h with
  | 0, _ | 1, _ | 2, _ | 3, _ | 4, _ | 5, _ | 6, _ | 7, _ => rfl

theorem bits4_getElem? (m : BitVec 4) {i : Nat} (h : i < 4) :
    (bits4 m)[i]? = some (m.getMsbD i) := by
  match i, h with
  | 0, _ | 1, _ | 2, _ | 3, _ => rfl

@[simp] theorem flatMap_bin8_length (c : List Byte) : (c.flatMap bin8).length = 8 * c.length := by
  induction c with
  | nil => rfl
  | cons b c ih => simp only [List.flatMap_cons, List.length_append, bin8_length, ih,
      List.length_cons]; omega

theorem val_lt (w : Bits) : val w < 2 ^ w.length := by
  induction w with
  | nil => simp [val]
  | cons b w ih =>
    simp only [val, List.length_cons, Nat.pow_succ]
    cases b <;> simp <;> omega

theorem val_append (u w : Bits) : val (u ++ w) = val u * 2 ^ w.length + val w := by
  induction u with
  | nil => simp [val]
  | cons b u ih =>
    simp only [List.cons_append, val, ih, List.length_append, Nat.pow_add, Nat.add_mul]
    ring

/-- `val` undoes `bin8` (R8). -/
theorem val_bin8 (v : Byte) : val (bin8 v) = v.toNat := by
  revert v; decide

/-- `val` undoes `bits4`. -/
theorem val_bits4 (m : BitVec 4) : val (bits4 m) = m.toNat := by
  revert m; decide

theorem bytes_bin8_append (v : Byte) (w : Bits) : bytes (bin8 v ++ w) = v :: bytes w := by
  have h : BitVec.ofNat 8 (val (bin8 v)) = v := by rw [val_bin8]; simp
  exact congrArg (· :: bytes w) h

/-- `bytes` undoes the concatenation of `bin8`s. -/
@[simp] theorem bytes_flatMap_bin8 (c : List Byte) : bytes (c.flatMap bin8) = c := by
  induction c with
  | nil => rfl
  | cons b c ih => rw [List.flatMap_cons, bytes_bin8_append, ih]

theorem bytes_length (w : Bits) : (bytes w).length = w.length / 8 := by
  induction w using bytes.induct with
  | case1 b0 b1 b2 b3 b4 b5 b6 b7 rest ih =>
    simp only [bytes, List.length_cons, ih]; omega
  | case2 w h =>
    unfold bytes
    split
    · exact absurd rfl (h _ _ _ _ _ _ _ _ _)
    · rename_i h'
      rcases w with _ | ⟨_, _ | ⟨_, _ | ⟨_, _ | ⟨_, _ | ⟨_, _ | ⟨_, _ | ⟨_, _ | ⟨_, _⟩⟩⟩⟩⟩⟩⟩⟩ <;>
        first
          | exact absurd rfl (h _ _ _ _ _ _ _ _ _)
          | simp [List.length]

theorem le_ceil8 (n : Nat) : n ≤ ceil8 n := by unfold ceil8; omega

theorem ceil8_lt (n : Nat) : ceil8 n < n + 8 := by unfold ceil8; omega

theorem ceil8_mod (n : Nat) : ceil8 n % 8 = 0 := by unfold ceil8; omega

end Sys2Proof.Machine
end

