-- ==== Sys2Proof/Laws/Cells.lean ====
section
/-! SUPPORT. The cells of a buffer: a read after a write gives the value written, a write leaves every
other entry alone, and every operation keeps the canonical form. -/

namespace Sys2Proof.Machine

variable {α : Type}

theorem cellsFind_set (c : List (Nat × α)) (i j : Nat) (v : α) :
    cellsFind (cellsSet c i v) j = if j = i then some v else cellsFind c j := by
  induction c with
  | nil => simp [cellsSet, cellsFind]
  | cons e c ih =>
    obtain ⟨k, w⟩ := e
    simp only [cellsSet]
    split
    · simp [cellsFind]
    · split
      · subst i; simp only [cellsFind]; split <;> rfl
      · simp only [cellsFind, ih]
        by_cases hjk : j = k
        · subst hjk; simp [show ¬ j = i by omega]
        · simp [hjk]

theorem cellsFind_from (i j : Nat) (vs : List α) :
    cellsFind (cellsFrom i vs) j = if i ≤ j then vs[j - i]? else none := by
  induction vs generalizing i with
  | nil => simp [cellsFrom, cellsFind]
  | cons v vs ih =>
    simp only [cellsFrom, cellsFind, ih]
    by_cases h : j = i
    · subst h; simp
    · by_cases hij : i ≤ j
      · have : j - i = (j - (i + 1)) + 1 := by omega
        simp [h, hij, show i + 1 ≤ j by omega, this]
      · simp [h, hij, show ¬ i + 1 ≤ j by omega]

theorem cellsFind_append (c d : List (Nat × α)) (j : Nat) :
    cellsFind (c ++ d) j = (cellsFind c j).or (cellsFind d j) := by
  induction c with
  | nil => simp [cellsFind]
  | cons e c ih =>
    obtain ⟨k, w⟩ := e
    simp only [List.cons_append, cellsFind]
    split
    · simp
    · exact ih

theorem cellsFind_filter (p : Nat → Bool) (c : List (Nat × α)) (j : Nat) :
    cellsFind (c.filter fun e => p e.1) j = if p j then cellsFind c j else none := by
  induction c with
  | nil => simp [cellsFind]
  | cons e c ih =>
    obtain ⟨k, w⟩ := e
    by_cases hk : p k = true
    · simp only [List.filter_cons, hk, if_true, cellsFind, ih]
      by_cases hjk : j = k
      · subst hjk; simp [hk]
      · simp [hjk]
    · rw [List.filter_cons_of_neg (p := fun e => p e.1) (a := (k, w)) hk, ih]
      by_cases hjk : j = k
      · subst hjk; simp [hk]
      · simp [cellsFind, hjk]

/-- What a run write leaves listed at index `j`. -/
theorem cellsFind_writeRun (c : List (Nat × α)) (i j : Nat) (vs : List α) :
    cellsFind (cellsWriteRun c i vs) j =
      if i ≤ j ∧ j < i + vs.length then vs[j - i]? else cellsFind c j := by
  have h1 := cellsFind_filter (fun k => decide (k < i)) c j
  have h2 := cellsFind_filter (fun k => decide (i + vs.length ≤ k)) c j
  simp only [decide_eq_true_eq] at h1 h2
  rw [cellsWriteRun, cellsFind_append, cellsFind_append, h1, h2, cellsFind_from]
  by_cases hi : i ≤ j
  · by_cases hj : j < i + vs.length
    · rw [List.getElem?_eq_getElem (by omega : j - i < vs.length)]
      simp [hi, hj, show ¬ j < i by omega]
    · have hn : vs[j - i]? = none := List.getElem?_eq_none (by omega)
      simp [hi, hj, hn, show ¬ j < i by omega, show i + vs.length ≤ j by omega]
  · simp [hi, show j < i by omega, show ¬ i + vs.length ≤ j by omega]

/-! ### The canonical form is kept -/

theorem cellsWf_nil (bound : Nat) : cellsWf bound ([] : List (Nat × α)) :=
  ⟨List.Pairwise.nil, by simp⟩

theorem cellsSet_key {c : List (Nat × α)} {i : Nat} {v : α} {e : Nat × α}
    (h : e ∈ cellsSet c i v) : e.1 = i ∨ e ∈ c := by
  induction c with
  | nil => simp [cellsSet] at h; simp [h]
  | cons d c ih =>
    obtain ⟨k, w⟩ := d
    simp only [cellsSet] at h
    split at h
    · rcases List.mem_cons.1 h with rfl | h
      · exact .inl rfl
      · exact .inr h
    · split at h
      · rcases List.mem_cons.1 h with rfl | h
        · exact .inl rfl
        · exact .inr (List.mem_cons_of_mem _ h)
      · rcases List.mem_cons.1 h with rfl | h
        · exact .inr List.mem_cons_self
        · rcases ih h with h | h
          · exact .inl h
          · exact .inr (List.mem_cons_of_mem _ h)

/-- Writing one entry keeps the canonical form. -/
theorem cellsSet_wf {bound : Nat} {c : List (Nat × α)} (hc : cellsWf bound c) {i : Nat}
    (hi : i < bound) (v : α) : cellsWf bound (cellsSet c i v) := by
  refine ⟨?_, fun e he => (cellsSet_key he).elim (fun h => h ▸ hi) (hc.2 e)⟩
  replace hc := hc.1
  induction c with
  | nil => simp [cellsSet]
  | cons d c ih =>
    obtain ⟨k, w⟩ := d
    have hk := List.pairwise_cons.1 hc
    simp only [cellsSet]
    split
    · rename_i hlt
      refine List.pairwise_cons.2 ⟨fun e he => ?_, hc⟩
      rcases List.mem_cons.1 he with rfl | he
      · exact hlt
      · exact Nat.lt_trans hlt (hk.1 e he)
    · split
      · rename_i _ heq
        subst heq
        exact List.pairwise_cons.2 ⟨hk.1, hk.2⟩
      · refine List.pairwise_cons.2 ⟨fun e he => ?_, ih hk.2⟩
        rcases cellsSet_key he with h | h
        · simp only [h]; omega
        · exact hk.1 e h

theorem cellsFrom_key {i : Nat} {vs : List α} {e : Nat × α} (h : e ∈ cellsFrom i vs) :
    i ≤ e.1 ∧ e.1 < i + vs.length := by
  induction vs generalizing i with
  | nil => simp [cellsFrom] at h
  | cons v vs ih =>
    rcases List.mem_cons.1 h with rfl | h
    · simp
    · have := ih h
      simp only [List.length_cons]
      omega

theorem cellsFrom_pairwise (i : Nat) (vs : List α) :
    (cellsFrom i vs).Pairwise (fun a b => a.1 < b.1) := by
  induction vs generalizing i with
  | nil => exact List.Pairwise.nil
  | cons v vs ih =>
    exact List.pairwise_cons.2 ⟨fun e he => (cellsFrom_key he).1, ih (i + 1)⟩

/-- A run of values from 0 on is canonical when it fits. -/
theorem cellsFrom_wf {bound i : Nat} {vs : List α} (h : i + vs.length ≤ bound) :
    cellsWf bound (cellsFrom i vs) :=
  ⟨cellsFrom_pairwise i vs, fun _ he => Nat.lt_of_lt_of_le (cellsFrom_key he).2 h⟩

/-- Writing a run keeps the canonical form when it fits. -/
theorem cellsWriteRun_wf {bound : Nat} {c : List (Nat × α)} (hc : cellsWf bound c) {i : Nat}
    {vs : List α} (h : i + vs.length ≤ bound) : cellsWf bound (cellsWriteRun c i vs) := by
  have lo {e : Nat × α} (he : e ∈ c.filter fun e => decide (e.1 < i)) : e ∈ c ∧ e.1 < i := by
    simpa using he
  have hi' {e : Nat × α} (he : e ∈ c.filter fun e => decide (i + vs.length ≤ e.1)) :
      e ∈ c ∧ i + vs.length ≤ e.1 := by
    simpa using he
  constructor
  · refine List.pairwise_append.2 ⟨List.pairwise_append.2 ⟨hc.1.filter _, cellsFrom_pairwise i vs,
      fun a ha b hb => Nat.lt_of_lt_of_le (lo ha).2 (cellsFrom_key hb).1⟩, hc.1.filter _,
      fun a ha b hb => ?_⟩
    have hb := (hi' hb).2
    rcases List.mem_append.1 ha with ha | ha
    · have := (lo ha).2; omega
    · have := (cellsFrom_key ha).2; omega
  · intro e he
    rcases List.mem_append.1 he with he | he
    · rcases List.mem_append.1 he with he | he
      · exact hc.2 e (lo he).1
      · exact Nat.lt_of_lt_of_le (cellsFrom_key he).2 h
    · exact hc.2 e (hi' he).1

end Sys2Proof.Machine
end

