-- ==== Sys2Proof/Laws/Config.lean ====
section
/-! SUPPORT. What may be assumed of the configuration, one lemma per constraint of 00_scope.md R5,
10_state.md R41, R42, R44 and 43_error_correction_encoder.md R155. Nothing else is known of it. -/

namespace Sys2Proof

theorem Params.specDefault_valid : Params.specDefault.valid = true := by decide

/-- The configuration meets every constraint, whatever it is. -/
theorem Config.params_valid : Config.params.valid = true := by
  unfold Config.params
  split
  · assumption
  · exact Params.specDefault_valid

theorem mem_versions {v : Nat} : v ∈ versions ↔ 1 ≤ v ∧ v ≤ 8 := by
  simp [versions]; omega

theorem Tier.mem_all (t : Tier) : t ∈ Tier.all := by cases t <;> decide

theorem Params.valid_parts {P : Params} (h : P.valid = true) :
    P.capOk = true ∧ P.alignOk = true ∧ gfIrreducible P.gfPoly = true ∧ P.rsGenOk = true ∧
      P.bsMaxOk = true := by
  simpa [Params.valid, and_assoc] using h

theorem Params.capOk_parts {P : Params} (h : P.valid = true) :
    P.cap.length = 8 ∧
    (∀ v ∈ versions, ∀ w ∈ versions, ∀ t ∈ Tier.all, w ≤ v ∨ P.capOf v t < P.capOf w t) ∧
    (∀ v ∈ versions, (P.capOf v .M ≤ P.capOf v .L ∧ P.capOf v .Q ≤ P.capOf v .M) ∧
      P.capOf v .H ≤ P.capOf v .Q) ∧
    (∀ v ∈ versions, ∀ t ∈ Tier.all, P.capOf v t ≤ 65535) ∧
    P.capOf 1 .M = 128 ∧ P.capOf 8 .H = 640 := by
  have := (Params.valid_parts h).1
  simpa only [Params.capOk, Bool.and_eq_true, List.all_eq_true, Bool.or_eq_true,
    decide_eq_true_eq, beq_iff_eq, and_assoc] using this

/-- R42 (a). -/
theorem Params.capOf_lt {P : Params} (h : P.valid = true) {v w : Nat} (hv : 1 ≤ v) (hvw : v < w)
    (hw : w ≤ 8) (t : Tier) : P.capOf v t < P.capOf w t := by
  have := (Params.capOk_parts h).2.1 v (mem_versions.2 ⟨hv, by omega⟩) w
    (mem_versions.2 ⟨by omega, hw⟩) t t.mem_all
  omega

theorem Params.capOf_le_of_le {P : Params} (h : P.valid = true) {v w : Nat} (hv : 1 ≤ v)
    (hvw : v ≤ w) (hw : w ≤ 8) (t : Tier) : P.capOf v t ≤ P.capOf w t := by
  rcases Nat.lt_or_eq_of_le hvw with hlt | rfl
  · exact Nat.le_of_lt (Params.capOf_lt h hv hlt hw t)
  · exact Nat.le_refl _

/-- R42 (b). -/
theorem Params.capOf_tiers {P : Params} (h : P.valid = true) {v : Nat} (hv : v ∈ versions) :
    P.capOf v .H ≤ P.capOf v .Q ∧ P.capOf v .Q ≤ P.capOf v .M ∧ P.capOf v .M ≤ P.capOf v .L := by
  have := (Params.capOk_parts h).2.2.1 v hv
  exact ⟨this.2, this.1.2, this.1.1⟩

/-- R42 (c). -/
theorem Params.capOf_le {P : Params} (h : P.valid = true) {v : Nat} (hv : v ∈ versions) (t : Tier) :
    P.capOf v t ≤ 65535 :=
  (Params.capOk_parts h).2.2.2.1 v hv t t.mem_all

/-- R41. -/
theorem Params.capOf_one_M {P : Params} (h : P.valid = true) : P.capOf 1 .M = 128 :=
  (Params.capOk_parts h).2.2.2.2.1

/-- R41. -/
theorem Params.capOf_eight_H {P : Params} (h : P.valid = true) : P.capOf 8 .H = 640 :=
  (Params.capOk_parts h).2.2.2.2.2

theorem Params.alignOk_parts {P : Params} (h : P.valid = true) :
    P.align.length = 8 ∧ (∀ v ∈ versions, (P.alignOf v).Nodup) ∧ P.alignOf 1 = [] ∧
      P.alignOf 7 = [6, 22, 38] := by
  have := (Params.valid_parts h).2.1
  simpa only [Params.alignOk, Bool.and_eq_true, List.all_eq_true, decide_eq_true_eq, beq_iff_eq,
    and_assoc] using this

/-- R44. -/
theorem Params.alignOf_one {P : Params} (h : P.valid = true) : P.alignOf 1 = [] :=
  (Params.alignOk_parts h).2.2.1

/-- R44. -/
theorem Params.alignOf_seven {P : Params} (h : P.valid = true) : P.alignOf 7 = [6, 22, 38] :=
  (Params.alignOk_parts h).2.2.2

/-- R151. -/
theorem Params.gfPoly_irreducible {P : Params} (h : P.valid = true) :
    gfIrreducible P.gfPoly = true :=
  (Params.valid_parts h).2.2.1

/-- R155. -/
theorem Params.rsGen_shape {P : Params} (h : P.valid = true) :
    P.rsGen.length = 8 ∧ P.rsGen.head? = some 1 := by
  simpa [Params.rsGenOk] using (Params.valid_parts h).2.2.2.1

theorem Params.rsGen_tail_length {P : Params} (h : P.valid = true) : P.rsGen.tail.length = 7 := by
  simp [(Params.rsGen_shape h).1]

/-- R5, `BS_MAX`. -/
theorem Params.bsMax_bounds {P : Params} (h : P.valid = true) : 2052 ≤ P.bsMax ∧ P.bsMax ≤ 65535 := by
  simpa [Params.bsMaxOk] using (Params.valid_parts h).2.2.2.2

theorem Config.bsMax_bounds : 2052 ≤ Config.params.bsMax ∧ Config.params.bsMax ≤ 65535 :=
  Params.bsMax_bounds Config.params_valid

theorem Config.capOf_le {v : Nat} (hv : v ∈ versions) (t : Tier) :
    Config.params.capOf v t ≤ 65535 :=
  Params.capOf_le Config.params_valid hv t

theorem Config.capOf_one_M : Config.params.capOf 1 .M = 128 :=
  Params.capOf_one_M Config.params_valid

theorem Config.capOf_eight_H : Config.params.capOf 8 .H = 640 :=
  Params.capOf_eight_H Config.params_valid

theorem Config.alignOf_one : Config.params.alignOf 1 = [] :=
  Params.alignOf_one Config.params_valid

theorem Config.alignOf_seven : Config.params.alignOf 7 = [6, 22, 38] :=
  Params.alignOf_seven Config.params_valid

end Sys2Proof
end

