-- ==== Sys2Proof/Laws/State.lean ====
section
/-! SUPPORT. What each update of the state leaves in each field: one lemma per field per update, true
by unfolding, so that no later proof unfolds a record update. -/

namespace Sys2Proof.Machine

/-! ### raise -/

@[simp] theorem State.raise_cmd (c : Cause) (s : State) : (s.raise c).cmd = s.cmd := rfl
@[simp] theorem State.raise_status (c : Cause) (s : State) : (s.raise c).status = statusFault := rfl
@[simp] theorem State.raise_errcode (c : Cause) (s : State) : (s.raise c).errcode = c.code := rfl
@[simp] theorem State.raise_errinfo (c : Cause) (s : State) : (s.raise c).errinfo = c.info := rfl
@[simp] theorem State.raise_len (c : Cause) (s : State) : (s.raise c).len = s.len := rfl
@[simp] theorem State.raise_bslen (c : Cause) (s : State) : (s.raise c).bslen = s.bslen := rfl
@[simp] theorem State.raise_target (c : Cause) (s : State) : (s.raise c).target = s.target := rfl
@[simp] theorem State.raise_version (c : Cause) (s : State) : (s.raise c).version = s.version := rfl
@[simp] theorem State.raise_outlen (c : Cause) (s : State) : (s.raise c).outlen = s.outlen := rfl
@[simp] theorem State.raise_scale (c : Cause) (s : State) : (s.raise c).scale = s.scale := rfl
@[simp] theorem State.raise_border (c : Cause) (s : State) : (s.raise c).border = s.border := rfl
@[simp] theorem State.raise_msize (c : Cause) (s : State) : (s.raise c).msize = s.msize := rfl
@[simp] theorem State.raise_dim (c : Cause) (s : State) : (s.raise c).dim = s.dim := rfl
@[simp] theorem State.raise_gridW (c : Cause) (s : State) : (s.raise c).gridW = s.gridW := rfl
@[simp] theorem State.raise_gridH (c : Cause) (s : State) : (s.raise c).gridH = s.gridH := rfl
@[simp] theorem State.raise_inBuf (c : Cause) (s : State) : (s.raise c).inBuf = s.inBuf := rfl
@[simp] theorem State.raise_bs (c : Cause) (s : State) : (s.raise c).bs = s.bs := rfl
@[simp] theorem State.raise_out (c : Cause) (s : State) : (s.raise c).out = s.out := rfl
@[simp] theorem State.raise_pix (c : Cause) (s : State) : (s.raise c).pix = s.pix := rfl
@[simp] theorem State.raise_free (c : Cause) (s : State) : (s.raise c).free = s.free := rfl
@[simp] theorem State.raise_readData (c : Cause) (s : State) :
    (s.raise c).readData = s.readData := rfl
@[simp] theorem State.raise_host (c : Cause) (s : State) : (s.raise c).host = s.host := rfl
@[simp] theorem State.raise_meanwhile (c : Cause) (s : State) :
    (s.raise c).meanwhile = s.meanwhile := rfl

/-! ### complete -/

@[simp] theorem State.complete_cmd (s : State) : (s.complete).cmd = s.cmd := rfl
@[simp] theorem State.complete_status (s : State) : (s.complete).status = statusDone := rfl
@[simp] theorem State.complete_errcode (s : State) : (s.complete).errcode = 0 := rfl
@[simp] theorem State.complete_errinfo (s : State) : (s.complete).errinfo = 0 := rfl
@[simp] theorem State.complete_len (s : State) : (s.complete).len = s.len := rfl
@[simp] theorem State.complete_bslen (s : State) : (s.complete).bslen = s.bslen := rfl
@[simp] theorem State.complete_target (s : State) : (s.complete).target = s.target := rfl
@[simp] theorem State.complete_version (s : State) : (s.complete).version = s.version := rfl
@[simp] theorem State.complete_outlen (s : State) : (s.complete).outlen = s.outlen := rfl
@[simp] theorem State.complete_scale (s : State) : (s.complete).scale = s.scale := rfl
@[simp] theorem State.complete_border (s : State) : (s.complete).border = s.border := rfl
@[simp] theorem State.complete_msize (s : State) : (s.complete).msize = s.msize := rfl
@[simp] theorem State.complete_dim (s : State) : (s.complete).dim = s.dim := rfl
@[simp] theorem State.complete_gridW (s : State) : (s.complete).gridW = s.gridW := rfl
@[simp] theorem State.complete_gridH (s : State) : (s.complete).gridH = s.gridH := rfl
@[simp] theorem State.complete_inBuf (s : State) : (s.complete).inBuf = s.inBuf := rfl
@[simp] theorem State.complete_bs (s : State) : (s.complete).bs = s.bs := rfl
@[simp] theorem State.complete_out (s : State) : (s.complete).out = s.out := rfl
@[simp] theorem State.complete_pix (s : State) : (s.complete).pix = s.pix := rfl
@[simp] theorem State.complete_free (s : State) : (s.complete).free = s.free := rfl
@[simp] theorem State.complete_readData (s : State) : (s.complete).readData = s.readData := rfl
@[simp] theorem State.complete_host (s : State) : (s.complete).host = s.host := rfl
@[simp] theorem State.complete_meanwhile (s : State) : (s.complete).meanwhile = s.meanwhile := rfl

/-! ### issue -/

@[simp] theorem State.issue_cmd (w : Byte) (m : List BusyEvent) (s : State) :
    (s.issue w m).cmd = w := rfl
@[simp] theorem State.issue_status (w : Byte) (m : List BusyEvent) (s : State) :
    (s.issue w m).status = statusBusy := rfl
@[simp] theorem State.issue_errcode (w : Byte) (m : List BusyEvent) (s : State) :
    (s.issue w m).errcode = 0 := rfl
@[simp] theorem State.issue_errinfo (w : Byte) (m : List BusyEvent) (s : State) :
    (s.issue w m).errinfo = 0 := rfl
@[simp] theorem State.issue_len (w : Byte) (m : List BusyEvent) (s : State) :
    (s.issue w m).len = s.len := rfl
@[simp] theorem State.issue_bslen (w : Byte) (m : List BusyEvent) (s : State) :
    (s.issue w m).bslen = s.bslen := rfl
@[simp] theorem State.issue_target (w : Byte) (m : List BusyEvent) (s : State) :
    (s.issue w m).target = s.target := rfl
@[simp] theorem State.issue_version (w : Byte) (m : List BusyEvent) (s : State) :
    (s.issue w m).version = s.version := rfl
@[simp] theorem State.issue_outlen (w : Byte) (m : List BusyEvent) (s : State) :
    (s.issue w m).outlen = s.outlen := rfl
@[simp] theorem State.issue_scale (w : Byte) (m : List BusyEvent) (s : State) :
    (s.issue w m).scale = s.scale := rfl
@[simp] theorem State.issue_border (w : Byte) (m : List BusyEvent) (s : State) :
    (s.issue w m).border = s.border := rfl
@[simp] theorem State.issue_msize (w : Byte) (m : List BusyEvent) (s : State) :
    (s.issue w m).msize = s.msize := rfl
@[simp] theorem State.issue_dim (w : Byte) (m : List BusyEvent) (s : State) :
    (s.issue w m).dim = s.dim := rfl
@[simp] theorem State.issue_gridW (w : Byte) (m : List BusyEvent) (s : State) :
    (s.issue w m).gridW = s.gridW := rfl
@[simp] theorem State.issue_gridH (w : Byte) (m : List BusyEvent) (s : State) :
    (s.issue w m).gridH = s.gridH := rfl
@[simp] theorem State.issue_inBuf (w : Byte) (m : List BusyEvent) (s : State) :
    (s.issue w m).inBuf = s.inBuf := rfl
@[simp] theorem State.issue_bs (w : Byte) (m : List BusyEvent) (s : State) :
    (s.issue w m).bs = s.bs := rfl
@[simp] theorem State.issue_out (w : Byte) (m : List BusyEvent) (s : State) :
    (s.issue w m).out = s.out := rfl
@[simp] theorem State.issue_pix (w : Byte) (m : List BusyEvent) (s : State) :
    (s.issue w m).pix = s.pix := rfl
@[simp] theorem State.issue_free (w : Byte) (m : List BusyEvent) (s : State) :
    (s.issue w m).free = s.free := rfl
@[simp] theorem State.issue_readData (w : Byte) (m : List BusyEvent) (s : State) :
    (s.issue w m).readData = s.readData := rfl
@[simp] theorem State.issue_host (w : Byte) (m : List BusyEvent) (s : State) :
    (s.issue w m).host = s.host := rfl
@[simp] theorem State.issue_meanwhile (w : Byte) (m : List BusyEvent) (s : State) :
    (s.issue w m).meanwhile = m := rfl

/-! ### clearRegs -/

@[simp] theorem State.clearRegs_cmd (s : State) : (s.clearRegs).cmd = s.cmd := rfl
@[simp] theorem State.clearRegs_status (s : State) : (s.clearRegs).status = s.status := rfl
@[simp] theorem State.clearRegs_errcode (s : State) : (s.clearRegs).errcode = 0 := rfl
@[simp] theorem State.clearRegs_errinfo (s : State) : (s.clearRegs).errinfo = 0 := rfl
@[simp] theorem State.clearRegs_len (s : State) : (s.clearRegs).len = 0 := rfl
@[simp] theorem State.clearRegs_bslen (s : State) : (s.clearRegs).bslen = 0 := rfl
@[simp] theorem State.clearRegs_target (s : State) : (s.clearRegs).target = 0 := rfl
@[simp] theorem State.clearRegs_version (s : State) : (s.clearRegs).version = 0 := rfl
@[simp] theorem State.clearRegs_outlen (s : State) : (s.clearRegs).outlen = 0 := rfl
@[simp] theorem State.clearRegs_scale (s : State) : (s.clearRegs).scale = 0 := rfl
@[simp] theorem State.clearRegs_border (s : State) : (s.clearRegs).border = 0 := rfl
@[simp] theorem State.clearRegs_msize (s : State) : (s.clearRegs).msize = 0 := rfl
@[simp] theorem State.clearRegs_dim (s : State) : (s.clearRegs).dim = 0 := rfl
@[simp] theorem State.clearRegs_gridW (s : State) : (s.clearRegs).gridW = 0 := rfl
@[simp] theorem State.clearRegs_gridH (s : State) : (s.clearRegs).gridH = 0 := rfl
@[simp] theorem State.clearRegs_inBuf (s : State) : (s.clearRegs).inBuf = s.inBuf := rfl
@[simp] theorem State.clearRegs_bs (s : State) : (s.clearRegs).bs = s.bs := rfl
@[simp] theorem State.clearRegs_out (s : State) : (s.clearRegs).out = s.out := rfl
@[simp] theorem State.clearRegs_pix (s : State) : (s.clearRegs).pix = s.pix := rfl
@[simp] theorem State.clearRegs_free (s : State) : (s.clearRegs).free = s.free := rfl
@[simp] theorem State.clearRegs_readData (s : State) : (s.clearRegs).readData = s.readData := rfl
@[simp] theorem State.clearRegs_host (s : State) : (s.clearRegs).host = s.host := rfl
@[simp] theorem State.clearRegs_meanwhile (s : State) : (s.clearRegs).meanwhile = s.meanwhile := rfl

/-! ### forgetBuffers -/

@[simp] theorem State.forgetBuffers_cmd (s : State) : (s.forgetBuffers).cmd = s.cmd := rfl
@[simp] theorem State.forgetBuffers_status (s : State) : (s.forgetBuffers).status = s.status := rfl
@[simp] theorem State.forgetBuffers_errcode (s : State) :
    (s.forgetBuffers).errcode = s.errcode := rfl
@[simp] theorem State.forgetBuffers_errinfo (s : State) :
    (s.forgetBuffers).errinfo = s.errinfo := rfl
@[simp] theorem State.forgetBuffers_len (s : State) : (s.forgetBuffers).len = s.len := rfl
@[simp] theorem State.forgetBuffers_bslen (s : State) : (s.forgetBuffers).bslen = s.bslen := rfl
@[simp] theorem State.forgetBuffers_target (s : State) : (s.forgetBuffers).target = s.target := rfl
@[simp] theorem State.forgetBuffers_version (s : State) :
    (s.forgetBuffers).version = s.version := rfl
@[simp] theorem State.forgetBuffers_outlen (s : State) : (s.forgetBuffers).outlen = s.outlen := rfl
@[simp] theorem State.forgetBuffers_scale (s : State) : (s.forgetBuffers).scale = s.scale := rfl
@[simp] theorem State.forgetBuffers_border (s : State) : (s.forgetBuffers).border = s.border := rfl
@[simp] theorem State.forgetBuffers_msize (s : State) : (s.forgetBuffers).msize = s.msize := rfl
@[simp] theorem State.forgetBuffers_dim (s : State) : (s.forgetBuffers).dim = s.dim := rfl
@[simp] theorem State.forgetBuffers_gridW (s : State) : (s.forgetBuffers).gridW = s.gridW := rfl
@[simp] theorem State.forgetBuffers_gridH (s : State) : (s.forgetBuffers).gridH = s.gridH := rfl
@[simp] theorem State.forgetBuffers_inBuf (s : State) :
    (s.forgetBuffers).inBuf = ⟨s.free, []⟩ := rfl
@[simp] theorem State.forgetBuffers_bs (s : State) : (s.forgetBuffers).bs = ⟨s.free, []⟩ := rfl
@[simp] theorem State.forgetBuffers_out (s : State) : (s.forgetBuffers).out = ⟨s.free, []⟩ := rfl
@[simp] theorem State.forgetBuffers_pix (s : State) : (s.forgetBuffers).pix = s.pix := rfl
@[simp] theorem State.forgetBuffers_free (s : State) : (s.forgetBuffers).free = s.free + 1 := rfl
@[simp] theorem State.forgetBuffers_readData (s : State) :
    (s.forgetBuffers).readData = s.readData := rfl
@[simp] theorem State.forgetBuffers_host (s : State) : (s.forgetBuffers).host = s.host := rfl
@[simp] theorem State.forgetBuffers_meanwhile (s : State) :
    (s.forgetBuffers).meanwhile = s.meanwhile := rfl

/-! ### replaceStream -/

@[simp] theorem State.replaceStream_cmd (w : Bits) (s : State) :
    (s.replaceStream w).cmd = s.cmd := rfl
@[simp] theorem State.replaceStream_status (w : Bits) (s : State) :
    (s.replaceStream w).status = s.status := rfl
@[simp] theorem State.replaceStream_errcode (w : Bits) (s : State) :
    (s.replaceStream w).errcode = s.errcode := rfl
@[simp] theorem State.replaceStream_errinfo (w : Bits) (s : State) :
    (s.replaceStream w).errinfo = s.errinfo := rfl
@[simp] theorem State.replaceStream_len (w : Bits) (s : State) :
    (s.replaceStream w).len = s.len := rfl
@[simp] theorem State.replaceStream_bslen (w : Bits) (s : State) :
    (s.replaceStream w).bslen = BitVec.ofNat 16 w.length := rfl
@[simp] theorem State.replaceStream_target (w : Bits) (s : State) :
    (s.replaceStream w).target = s.target := rfl
@[simp] theorem State.replaceStream_version (w : Bits) (s : State) :
    (s.replaceStream w).version = s.version := rfl
@[simp] theorem State.replaceStream_outlen (w : Bits) (s : State) :
    (s.replaceStream w).outlen = s.outlen := rfl
@[simp] theorem State.replaceStream_scale (w : Bits) (s : State) :
    (s.replaceStream w).scale = s.scale := rfl
@[simp] theorem State.replaceStream_border (w : Bits) (s : State) :
    (s.replaceStream w).border = s.border := rfl
@[simp] theorem State.replaceStream_msize (w : Bits) (s : State) :
    (s.replaceStream w).msize = s.msize := rfl
@[simp] theorem State.replaceStream_dim (w : Bits) (s : State) :
    (s.replaceStream w).dim = s.dim := rfl
@[simp] theorem State.replaceStream_gridW (w : Bits) (s : State) :
    (s.replaceStream w).gridW = s.gridW := rfl
@[simp] theorem State.replaceStream_gridH (w : Bits) (s : State) :
    (s.replaceStream w).gridH = s.gridH := rfl
@[simp] theorem State.replaceStream_inBuf (w : Bits) (s : State) :
    (s.replaceStream w).inBuf = s.inBuf := rfl
@[simp] theorem State.replaceStream_bs (w : Bits) (s : State) :
    (s.replaceStream w).bs = Buf.replace s.free w := rfl
@[simp] theorem State.replaceStream_out (w : Bits) (s : State) :
    (s.replaceStream w).out = s.out := rfl
@[simp] theorem State.replaceStream_pix (w : Bits) (s : State) :
    (s.replaceStream w).pix = s.pix := rfl
@[simp] theorem State.replaceStream_free (w : Bits) (s : State) :
    (s.replaceStream w).free = s.free + 1 := rfl
@[simp] theorem State.replaceStream_readData (w : Bits) (s : State) :
    (s.replaceStream w).readData = s.readData := rfl
@[simp] theorem State.replaceStream_host (w : Bits) (s : State) :
    (s.replaceStream w).host = s.host := rfl
@[simp] theorem State.replaceStream_meanwhile (w : Bits) (s : State) :
    (s.replaceStream w).meanwhile = s.meanwhile := rfl

/-! ### writeStream -/

@[simp] theorem State.writeStream_cmd (w : Bits) (s : State) : (s.writeStream w).cmd = s.cmd := rfl
@[simp] theorem State.writeStream_status (w : Bits) (s : State) :
    (s.writeStream w).status = s.status := rfl
@[simp] theorem State.writeStream_errcode (w : Bits) (s : State) :
    (s.writeStream w).errcode = s.errcode := rfl
@[simp] theorem State.writeStream_errinfo (w : Bits) (s : State) :
    (s.writeStream w).errinfo = s.errinfo := rfl
@[simp] theorem State.writeStream_len (w : Bits) (s : State) : (s.writeStream w).len = s.len := rfl
@[simp] theorem State.writeStream_bslen (w : Bits) (s : State) :
    (s.writeStream w).bslen = BitVec.ofNat 16 w.length := rfl
@[simp] theorem State.writeStream_target (w : Bits) (s : State) :
    (s.writeStream w).target = s.target := rfl
@[simp] theorem State.writeStream_version (w : Bits) (s : State) :
    (s.writeStream w).version = s.version := rfl
@[simp] theorem State.writeStream_outlen (w : Bits) (s : State) :
    (s.writeStream w).outlen = s.outlen := rfl
@[simp] theorem State.writeStream_scale (w : Bits) (s : State) :
    (s.writeStream w).scale = s.scale := rfl
@[simp] theorem State.writeStream_border (w : Bits) (s : State) :
    (s.writeStream w).border = s.border := rfl
@[simp] theorem State.writeStream_msize (w : Bits) (s : State) :
    (s.writeStream w).msize = s.msize := rfl
@[simp] theorem State.writeStream_dim (w : Bits) (s : State) : (s.writeStream w).dim = s.dim := rfl
@[simp] theorem State.writeStream_gridW (w : Bits) (s : State) :
    (s.writeStream w).gridW = s.gridW := rfl
@[simp] theorem State.writeStream_gridH (w : Bits) (s : State) :
    (s.writeStream w).gridH = s.gridH := rfl
@[simp] theorem State.writeStream_inBuf (w : Bits) (s : State) :
    (s.writeStream w).inBuf = s.inBuf := rfl
@[simp] theorem State.writeStream_bs (w : Bits) (s : State) :
    (s.writeStream w).bs = s.bs.writeRun 0 w := rfl
@[simp] theorem State.writeStream_out (w : Bits) (s : State) : (s.writeStream w).out = s.out := rfl
@[simp] theorem State.writeStream_pix (w : Bits) (s : State) : (s.writeStream w).pix = s.pix := rfl
@[simp] theorem State.writeStream_free (w : Bits) (s : State) :
    (s.writeStream w).free = s.free := rfl
@[simp] theorem State.writeStream_readData (w : Bits) (s : State) :
    (s.writeStream w).readData = s.readData := rfl
@[simp] theorem State.writeStream_host (w : Bits) (s : State) :
    (s.writeStream w).host = s.host := rfl
@[simp] theorem State.writeStream_meanwhile (w : Bits) (s : State) :
    (s.writeStream w).meanwhile = s.meanwhile := rfl

/-! ### replaceOut -/

@[simp] theorem State.replaceOut_cmd (c : List Byte) (s : State) :
    (s.replaceOut c).cmd = s.cmd := rfl
@[simp] theorem State.replaceOut_status (c : List Byte) (s : State) :
    (s.replaceOut c).status = s.status := rfl
@[simp] theorem State.replaceOut_errcode (c : List Byte) (s : State) :
    (s.replaceOut c).errcode = s.errcode := rfl
@[simp] theorem State.replaceOut_errinfo (c : List Byte) (s : State) :
    (s.replaceOut c).errinfo = s.errinfo := rfl
@[simp] theorem State.replaceOut_len (c : List Byte) (s : State) :
    (s.replaceOut c).len = s.len := rfl
@[simp] theorem State.replaceOut_bslen (c : List Byte) (s : State) :
    (s.replaceOut c).bslen = s.bslen := rfl
@[simp] theorem State.replaceOut_target (c : List Byte) (s : State) :
    (s.replaceOut c).target = s.target := rfl
@[simp] theorem State.replaceOut_version (c : List Byte) (s : State) :
    (s.replaceOut c).version = s.version := rfl
@[simp] theorem State.replaceOut_outlen (c : List Byte) (s : State) :
    (s.replaceOut c).outlen = BitVec.ofNat 8 c.length := rfl
@[simp] theorem State.replaceOut_scale (c : List Byte) (s : State) :
    (s.replaceOut c).scale = s.scale := rfl
@[simp] theorem State.replaceOut_border (c : List Byte) (s : State) :
    (s.replaceOut c).border = s.border := rfl
@[simp] theorem State.replaceOut_msize (c : List Byte) (s : State) :
    (s.replaceOut c).msize = s.msize := rfl
@[simp] theorem State.replaceOut_dim (c : List Byte) (s : State) :
    (s.replaceOut c).dim = s.dim := rfl
@[simp] theorem State.replaceOut_gridW (c : List Byte) (s : State) :
    (s.replaceOut c).gridW = s.gridW := rfl
@[simp] theorem State.replaceOut_gridH (c : List Byte) (s : State) :
    (s.replaceOut c).gridH = s.gridH := rfl
@[simp] theorem State.replaceOut_inBuf (c : List Byte) (s : State) :
    (s.replaceOut c).inBuf = s.inBuf := rfl
@[simp] theorem State.replaceOut_bs (c : List Byte) (s : State) : (s.replaceOut c).bs = s.bs := rfl
@[simp] theorem State.replaceOut_out (c : List Byte) (s : State) :
    (s.replaceOut c).out = Buf.replace s.free c := rfl
@[simp] theorem State.replaceOut_pix (c : List Byte) (s : State) :
    (s.replaceOut c).pix = s.pix := rfl
@[simp] theorem State.replaceOut_free (c : List Byte) (s : State) :
    (s.replaceOut c).free = s.free + 1 := rfl
@[simp] theorem State.replaceOut_readData (c : List Byte) (s : State) :
    (s.replaceOut c).readData = s.readData := rfl
@[simp] theorem State.replaceOut_host (c : List Byte) (s : State) :
    (s.replaceOut c).host = s.host := rfl
@[simp] theorem State.replaceOut_meanwhile (c : List Byte) (s : State) :
    (s.replaceOut c).meanwhile = s.meanwhile := rfl

/-! ### setVersion -/

@[simp] theorem State.setVersion_cmd (P : Params) (t : Tier) (v : Nat) (s : State) :
    (s.setVersion P t v).cmd = s.cmd := rfl
@[simp] theorem State.setVersion_status (P : Params) (t : Tier) (v : Nat) (s : State) :
    (s.setVersion P t v).status = s.status := rfl
@[simp] theorem State.setVersion_errcode (P : Params) (t : Tier) (v : Nat) (s : State) :
    (s.setVersion P t v).errcode = s.errcode := rfl
@[simp] theorem State.setVersion_errinfo (P : Params) (t : Tier) (v : Nat) (s : State) :
    (s.setVersion P t v).errinfo = s.errinfo := rfl
@[simp] theorem State.setVersion_len (P : Params) (t : Tier) (v : Nat) (s : State) :
    (s.setVersion P t v).len = s.len := rfl
@[simp] theorem State.setVersion_bslen (P : Params) (t : Tier) (v : Nat) (s : State) :
    (s.setVersion P t v).bslen = s.bslen := rfl
@[simp] theorem State.setVersion_target (P : Params) (t : Tier) (v : Nat) (s : State) :
    (s.setVersion P t v).target = BitVec.ofNat 16 (P.capOf v t) := rfl
@[simp] theorem State.setVersion_version (P : Params) (t : Tier) (v : Nat) (s : State) :
    (s.setVersion P t v).version = BitVec.ofNat 8 v := rfl
@[simp] theorem State.setVersion_outlen (P : Params) (t : Tier) (v : Nat) (s : State) :
    (s.setVersion P t v).outlen = s.outlen := rfl
@[simp] theorem State.setVersion_scale (P : Params) (t : Tier) (v : Nat) (s : State) :
    (s.setVersion P t v).scale = s.scale := rfl
@[simp] theorem State.setVersion_border (P : Params) (t : Tier) (v : Nat) (s : State) :
    (s.setVersion P t v).border = s.border := rfl
@[simp] theorem State.setVersion_msize (P : Params) (t : Tier) (v : Nat) (s : State) :
    (s.setVersion P t v).msize = s.msize := rfl
@[simp] theorem State.setVersion_dim (P : Params) (t : Tier) (v : Nat) (s : State) :
    (s.setVersion P t v).dim = s.dim := rfl
@[simp] theorem State.setVersion_gridW (P : Params) (t : Tier) (v : Nat) (s : State) :
    (s.setVersion P t v).gridW = s.gridW := rfl
@[simp] theorem State.setVersion_gridH (P : Params) (t : Tier) (v : Nat) (s : State) :
    (s.setVersion P t v).gridH = s.gridH := rfl
@[simp] theorem State.setVersion_inBuf (P : Params) (t : Tier) (v : Nat) (s : State) :
    (s.setVersion P t v).inBuf = s.inBuf := rfl
@[simp] theorem State.setVersion_bs (P : Params) (t : Tier) (v : Nat) (s : State) :
    (s.setVersion P t v).bs = s.bs := rfl
@[simp] theorem State.setVersion_out (P : Params) (t : Tier) (v : Nat) (s : State) :
    (s.setVersion P t v).out = s.out := rfl
@[simp] theorem State.setVersion_pix (P : Params) (t : Tier) (v : Nat) (s : State) :
    (s.setVersion P t v).pix = s.pix := rfl
@[simp] theorem State.setVersion_free (P : Params) (t : Tier) (v : Nat) (s : State) :
    (s.setVersion P t v).free = s.free := rfl
@[simp] theorem State.setVersion_readData (P : Params) (t : Tier) (v : Nat) (s : State) :
    (s.setVersion P t v).readData = s.readData := rfl
@[simp] theorem State.setVersion_host (P : Params) (t : Tier) (v : Nat) (s : State) :
    (s.setVersion P t v).host = s.host := rfl
@[simp] theorem State.setVersion_meanwhile (P : Params) (t : Tier) (v : Nat) (s : State) :
    (s.setVersion P t v).meanwhile = s.meanwhile := rfl

/-! ### returned -/

@[simp] theorem State.returned_cmd (v : BitVec 32) (s : State) : (s.returned v).cmd = s.cmd := rfl
@[simp] theorem State.returned_status (v : BitVec 32) (s : State) :
    (s.returned v).status = s.status := rfl
@[simp] theorem State.returned_errcode (v : BitVec 32) (s : State) :
    (s.returned v).errcode = s.errcode := rfl
@[simp] theorem State.returned_errinfo (v : BitVec 32) (s : State) :
    (s.returned v).errinfo = s.errinfo := rfl
@[simp] theorem State.returned_len (v : BitVec 32) (s : State) : (s.returned v).len = s.len := rfl
@[simp] theorem State.returned_bslen (v : BitVec 32) (s : State) :
    (s.returned v).bslen = s.bslen := rfl
@[simp] theorem State.returned_target (v : BitVec 32) (s : State) :
    (s.returned v).target = s.target := rfl
@[simp] theorem State.returned_version (v : BitVec 32) (s : State) :
    (s.returned v).version = s.version := rfl
@[simp] theorem State.returned_outlen (v : BitVec 32) (s : State) :
    (s.returned v).outlen = s.outlen := rfl
@[simp] theorem State.returned_scale (v : BitVec 32) (s : State) :
    (s.returned v).scale = s.scale := rfl
@[simp] theorem State.returned_border (v : BitVec 32) (s : State) :
    (s.returned v).border = s.border := rfl
@[simp] theorem State.returned_msize (v : BitVec 32) (s : State) :
    (s.returned v).msize = s.msize := rfl
@[simp] theorem State.returned_dim (v : BitVec 32) (s : State) : (s.returned v).dim = s.dim := rfl
@[simp] theorem State.returned_gridW (v : BitVec 32) (s : State) :
    (s.returned v).gridW = s.gridW := rfl
@[simp] theorem State.returned_gridH (v : BitVec 32) (s : State) :
    (s.returned v).gridH = s.gridH := rfl
@[simp] theorem State.returned_inBuf (v : BitVec 32) (s : State) :
    (s.returned v).inBuf = s.inBuf := rfl
@[simp] theorem State.returned_bs (v : BitVec 32) (s : State) : (s.returned v).bs = s.bs := rfl
@[simp] theorem State.returned_out (v : BitVec 32) (s : State) : (s.returned v).out = s.out := rfl
@[simp] theorem State.returned_pix (v : BitVec 32) (s : State) : (s.returned v).pix = s.pix := rfl
@[simp] theorem State.returned_free (v : BitVec 32) (s : State) :
    (s.returned v).free = s.free := rfl
@[simp] theorem State.returned_readData (v : BitVec 32) (s : State) :
    (s.returned v).readData = v := rfl
@[simp] theorem State.returned_host (v : BitVec 32) (s : State) :
    (s.returned v).host = s.host := rfl
@[simp] theorem State.returned_meanwhile (v : BitVec 32) (s : State) :
    (s.returned v).meanwhile = s.meanwhile := rfl

/-! ### The fault and clean reports -/

theorem State.raise_report (c : Cause) (s : State) :
    (s.raise c).status = 0b110 ∧ (s.raise c).errcode = c.code ∧ (s.raise c).errinfo = c.info :=
  ⟨rfl, rfl, rfl⟩

theorem State.complete_report (s : State) :
    s.complete.status = 0b010 ∧ s.complete.errcode = 0 ∧ s.complete.errinfo = 0 :=
  ⟨rfl, rfl, rfl⟩

end Sys2Proof.Machine
end

