-- ==== Sys2Proof/Laws/Memory.lean ====
section
/-! SUPPORT. What every memory operation does to what is read afterwards, and that each keeps the
canonical form `Memory.wf`. -/

namespace Sys2Proof.Machine

variable {α : Type}

/-! ### Buffers -/

theorem Buf.read_write (f : Nat → Nat → α) (b : Buf α) (i j : Nat) (v : α) :
    (b.write i v).read f j = if j = i then v else b.read f j := by
  simp only [Buf.write, Buf.read, cellsFind_set]
  split <;> rfl

theorem Buf.read_writeRun (f : Nat → Nat → α) (b : Buf α) (i j : Nat) (vs : List α) :
    (b.writeRun i vs).read f j =
      if i ≤ j ∧ j < i + vs.length then (vs[j - i]?).getD (f b.epoch j) else b.read f j := by
  simp only [Buf.writeRun, Buf.read, cellsFind_writeRun]
  split <;> rfl

theorem Buf.read_replace (f : Nat → Nat → α) (draw j : Nat) (vs : List α) :
    (Buf.replace draw vs).read f j = (vs[j]?).getD (f draw j) := by
  simp [Buf.replace, Buf.read, cellsFind_from]

/-! ### The stream buffer -/

/-- Reading BS after a stream that replaces the old one. -/
theorem State.readBs_replaceStream (w : Bits) (s : State) (i : Nat) :
    (s.replaceStream w).readBs i = (w[i]?).getD (Config.freeBs s.free i) :=
  Buf.read_replace _ _ _ _

/-- Reading BS after a stream that extends the old one. -/
theorem State.readBs_writeStream (w : Bits) (s : State) (i : Nat) :
    (s.writeStream w).readBs i = (w[i]?).getD (s.readBs i) := by
  rw [State.readBs, State.writeStream_bs, Buf.read_writeRun]
  by_cases h : i < w.length
  · simp [h]
  · simp [h, State.readBs]

@[simp] theorem State.slice_length (s : State) (i n : Nat) : (s.slice i n).length = n := by
  simp [State.slice]

@[simp] theorem State.stream_length (s : State) : s.stream.length = s.bslen.toNat :=
  s.slice_length _ _

theorem State.slice_getElem? (s : State) (i n j : Nat) :
    (s.slice i n)[j]? = if j < n then some (s.readBs (i + j)) else none := by
  by_cases h : j < n
  · simp [State.slice, h]
  · simp [State.slice, h]

theorem State.stream_getElem? (s : State) (j : Nat) :
    s.stream[j]? = if j < s.bslen.toNat then some (s.readBs j) else none := by
  simp [State.stream, State.slice_getElem?]

/-- A stream that fits BSLEN is what the block then holds. -/
theorem State.stream_replaceStream {w : Bits} (h : w.length < 65536) (s : State) :
    (s.replaceStream w).stream = w := by
  apply List.ext_getElem?
  intro j
  have hlen : (s.replaceStream w).bslen.toNat = w.length := by
    simp [BitVec.toNat_ofNat, Nat.mod_eq_of_lt h]
  rw [State.stream_getElem?, hlen, State.readBs_replaceStream]
  by_cases hj : j < w.length
  · simp [hj]
  · simp [hj]

/-- An extended stream that fits BSLEN is what the block then holds. -/
theorem State.stream_writeStream {w : Bits} (h : w.length < 65536) (s : State) :
    (s.writeStream w).stream = w := by
  apply List.ext_getElem?
  intro j
  have hlen : (s.writeStream w).bslen.toNat = w.length := by
    simp [BitVec.toNat_ofNat, Nat.mod_eq_of_lt h]
  rw [State.stream_getElem?, hlen, State.readBs_writeStream]
  by_cases hj : j < w.length
  · simp [hj]
  · simp [hj]

/-- Reading OUT after DEC has written it. -/
theorem State.readOut_replaceOut (l : List Byte) (s : State) (i : Nat) :
    (s.replaceOut l).readOut i = (l[i]?).getD (Config.freeOut s.free i) :=
  Buf.read_replace _ _ _ _

theorem State.inputString_length (s : State) : s.inputString.length = s.len.toNat := by
  simp [State.inputString]

theorem State.inputString_getElem? (s : State) (i : Nat) :
    s.inputString[i]? = if i < s.len.toNat then some (s.readIn i) else none := by
  by_cases h : i < s.len.toNat
  · simp [State.inputString, h]
  · simp [State.inputString, h]

theorem State.payload_length (s : State) (n : Nat) : (s.payload n).length = n := by
  simp [State.payload]

theorem State.field_lt (s : State) (i n : Nat) : s.field i n < 2 ^ n := by
  simpa [State.field] using val_lt (s.slice i n)

/-! ### The pixel grid -/

theorem pixKey_inj {x y x' y' : Nat} (hx : x < 2 ^ 32) (hx' : x' < 2 ^ 32)
    (h : pixKey x y = pixKey x' y') : x = x' ∧ y = y' := by
  unfold pixKey at h
  omega

theorem pixKey_lt {x y : Nat} (hx : x < 2 ^ 32) (hy : y < 2 ^ 32) : pixKey x y < 2 ^ 64 := by
  unfold pixKey
  omega

/-- `set(x, y, b)`: that pixel holds `b`, no other pixel has changed (20_memory.md R66). -/
theorem Grid.get_set (g : Grid) {x y x' y' : Nat} (hx : x < 2 ^ 32) (hx' : x' < 2 ^ 32) (b : Bool) :
    (g.set x y b).get x' y' = if x' = x ∧ y' = y then b else g.get x' y' := by
  have hu : (g.set x y b).unwritten x' y' = g.unwritten x' y' := rfl
  simp only [Grid.get, Grid.set, cellsFind_set] at hu ⊢
  by_cases h : x' = x ∧ y' = y
  · simp [h]
  · have : pixKey x' y' ≠ pixKey x y := fun he => h (pixKey_inj hx' hx he)
    rw [if_neg this, if_neg h]
    rfl

theorem Grid.perform_cons (g : Grid) (w : PixWrite) (ws : List PixWrite) :
    g.perform (w :: ws) = (g.set w.x.toNat w.y.toNat w.bit).perform ws := rfl

/-- Two lists one after the other are one list (45_pattern_renderer.md R185). -/
theorem Grid.perform_append (g : Grid) (us ws : List PixWrite) :
    g.perform (us ++ ws) = (g.perform us).perform ws := by
  simp [Grid.perform]

@[simp] theorem Grid.perform_init (g : Grid) (ws : List PixWrite) :
    (g.perform ws).init = g.init := by
  induction ws generalizing g with
  | nil => rfl
  | cons w ws ih => rw [Grid.perform_cons, ih]; rfl

@[simp] theorem Grid.perform_epoch (g : Grid) (ws : List PixWrite) :
    (g.perform ws).epoch = g.epoch := by
  induction ws generalizing g with
  | nil => rfl
  | cons w ws ih => rw [Grid.perform_cons, ih]; rfl

/-- The pixel a write list leaves: the last write to it, or what it held (R185). -/
theorem Grid.get_perform (g : Grid) (ws : List PixWrite)
    (h : ∀ w ∈ ws, w.x.toNat < 2 ^ 32) {x y : Nat} (hx : x < 2 ^ 32) :
    (g.perform ws).get x y =
      ((ws.reverse.find? fun w => decide (w.x.toNat = x) && decide (w.y.toNat = y)).map
        PixWrite.bit).getD (g.get x y) := by
  induction ws generalizing g with
  | nil => rfl
  | cons w ws ih =>
    rw [Grid.perform_cons, ih _ (fun u hu => h u (List.mem_cons_of_mem _ hu)), List.reverse_cons,
      List.find?_append, Grid.get_set g (h w List.mem_cons_self) hx]
    cases ws.reverse.find? fun w => decide (w.x.toNat = x) && decide (w.y.toNat = y) with
    | some u => simp
    | none =>
      by_cases hc : w.x.toNat = x ∧ w.y.toNat = y
      · simp [hc]
      · have h1 : ¬(x = w.x.toNat ∧ y = w.y.toNat) := fun e => hc ⟨e.1.symm, e.2.symm⟩
        have h2 : (decide (w.x.toNat = x) && decide (w.y.toNat = y)) = false := by
          rw [Bool.eq_false_iff]
          intro e
          simp only [Bool.and_eq_true, decide_eq_true_eq] at e
          exact hc e
        simp only [List.find?_cons, List.find?_nil, h2, if_neg h1]
        rfl

/-! ### The canonical form is kept -/

theorem Memory.reset_wf : Memory.wf State.reset := by
  exact ⟨cellsWf_nil _, cellsWf_nil _, cellsWf_nil _, cellsWf_nil _⟩

theorem Buf.write_wf {bound : Nat} {b : Buf α} (hb : cellsWf bound b.cells) {i : Nat}
    (hi : i < bound) (v : α) : cellsWf bound (b.write i v).cells :=
  cellsSet_wf hb hi v

theorem Buf.writeRun_wf {bound : Nat} {b : Buf α} (hb : cellsWf bound b.cells) {i : Nat} {vs : List α}
    (h : i + vs.length ≤ bound) : cellsWf bound (b.writeRun i vs).cells :=
  cellsWriteRun_wf hb h

theorem Buf.replace_wf {bound draw : Nat} {vs : List α} (h : vs.length ≤ bound) :
    cellsWf bound (Buf.replace draw vs).cells :=
  cellsFrom_wf (by omega)

theorem Grid.set_wf {g : Grid} (hg : cellsWf (2 ^ 64) g.cells) {x y : Nat} (hx : x < 2 ^ 32)
    (hy : y < 2 ^ 32) (b : Bool) : cellsWf (2 ^ 64) (g.set x y b).cells :=
  cellsSet_wf hg (pixKey_lt hx hy) b

theorem Grid.construct_wf (g : Grid) (w h : Nat) : cellsWf (2 ^ 64) (g.construct w h).cells :=
  cellsWf_nil _

theorem Grid.provided_wf (draw : Nat) : cellsWf (2 ^ 64) (Grid.provided draw).cells :=
  cellsWf_nil _

theorem Grid.perform_wf {g : Grid} (hg : cellsWf (2 ^ 64) g.cells) {ws : List PixWrite}
    (h : ∀ w ∈ ws, w.x.toNat < 2 ^ 32 ∧ w.y.toNat < 2 ^ 32) :
    cellsWf (2 ^ 64) (g.perform ws).cells := by
  induction ws generalizing g with
  | nil => exact hg
  | cons w ws ih =>
    have hw := h w List.mem_cons_self
    exact ih (Grid.set_wf hg hw.1 hw.2 w.bit) fun u hu => h u (List.mem_cons_of_mem _ hu)

theorem State.replaceStream_wf {s : State} (hs : Memory.wf s) {w : Bits}
    (h : w.length ≤ Config.params.bsMax) : Memory.wf (s.replaceStream w) :=
  ⟨hs.1, Buf.replace_wf h, hs.2.2.1, hs.2.2.2⟩

theorem State.writeStream_wf {s : State} (hs : Memory.wf s) {w : Bits}
    (h : w.length ≤ Config.params.bsMax) : Memory.wf (s.writeStream w) :=
  ⟨hs.1, Buf.writeRun_wf hs.2.1 (by omega), hs.2.2.1, hs.2.2.2⟩

theorem State.replaceOut_wf {s : State} (hs : Memory.wf s) {c : List Byte}
    (h : c.length ≤ outDepth) : Memory.wf (s.replaceOut c) :=
  ⟨hs.1, hs.2.1, Buf.replace_wf h, hs.2.2.2⟩

theorem State.forgetBuffers_wf {s : State} (hs : Memory.wf s) : Memory.wf s.forgetBuffers :=
  ⟨cellsWf_nil _, cellsWf_nil _, cellsWf_nil _, hs.2.2.2⟩

/-- Replacing the grid by one in canonical form keeps the canonical form of all memory. -/
theorem Memory.wf_pix {s : State} (hs : Memory.wf s) {g : Grid} (hg : cellsWf (2 ^ 64) g.cells) :
    Memory.wf { s with pix := g } :=
  ⟨hs.1, hs.2.1, hs.2.2.1, hg⟩

end Sys2Proof.Machine
end

