-- ==== Sys2Proof/Laws/Commands.lean ====
section
/-! SUPPORT. One lemma per shared operation of the commands, saying once everything it can answer, so
that no proof unfolds it again. -/

namespace Sys2Proof.Machine

/-! ### The end of a command -/

@[simp] theorem conclude_ok (s t : State) : conclude s (.ok t) = .next t.complete := rfl

@[simp] theorem conclude_error (s : State) (c : Cause) :
    conclude s (.error c) = .next (s.raise c) := rfl

/-- A command ends in its writes completed, or in a fault on the state it started from (60 R253). -/
theorem conclude_cases {s u : State} {r : Except Cause State} (h : conclude s r = .next u) :
    (∃ t, r = .ok t ∧ u = t.complete) ∨ (∃ c, r = .error c ∧ u = s.raise c) := by
  cases r with
  | ok t => exact .inl ⟨t, rfl, (Host.Outcome.next.inj h).symm⟩
  | error c => exact .inr ⟨c, rfl, (Host.Outcome.next.inj h).symm⟩

/-! ### The drawing parameters (R184) -/

theorem checkParams_cases (s : State) :
    ((s.version.toNat < 1 ∨ 8 < s.version.toNat) ∧ checkParams s = .error (.badParameter 7)) ∨
    (s.version.toNat ∈ versions ∧ s.scale.toNat = 0 ∧ checkParams s = .error (.badParameter 9)) ∨
    (s.version.toNat ∈ versions ∧ s.scale.toNat ≠ 0 ∧
      checkParams s = .ok (matrixSize s.version.toNat)) := by
  unfold checkParams
  by_cases hv : s.version.toNat < 1 ∨ 8 < s.version.toNat
  · exact .inl ⟨hv, if_pos hv⟩
  · have hm : s.version.toNat ∈ versions := mem_versions.2 ⟨by omega, by omega⟩
    by_cases hs : s.scale.toNat = 0
    · exact .inr (.inl ⟨hm, hs, by rw [if_neg hv, if_pos hs]⟩)
    · exact .inr (.inr ⟨hm, hs, by rw [if_neg hv, if_neg hs]⟩)

theorem matrixSize_bounds {v : Nat} (h : v ∈ versions) : 21 ≤ matrixSize v ∧ matrixSize v ≤ 49 := by
  have := mem_versions.1 h
  unfold matrixSize
  omega

/-! ### The selection (R121) -/

theorem choose_some {P : Params} {t : Tier} {n v : Nat} (h : choose P t n = some v) :
    v ∈ versions ∧ n ≤ P.capOf v t := by
  refine ⟨List.mem_of_find?_eq_some h, ?_⟩
  simpa using List.find?_some h

theorem choose_none {P : Params} {t : Tier} {n : Nat} :
    choose P t n = none ↔ ∀ v ∈ versions, P.capOf v t < n := by
  simp [choose, List.find?_eq_none]

theorem selectVersion_cases (P : Params) (t : Tier) (n : Nat) :
    (∃ v, choose P t n = some v ∧ selectVersion P t n = .ok v) ∨
    (choose P t n = none ∧ selectVersion P t n = .error (.capacityExceeded n)) := by
  unfold selectVersion
  cases h : choose P t n with
  | some v => exact .inl ⟨v, rfl, rfl⟩
  | none => exact .inr ⟨rfl, rfl⟩

/-! ### The encoding (R132 to R134) -/

theorem firstUnsupported_none {l : List CodePoint} :
    firstUnsupported l = none ↔ ∀ x ∈ l, x.toNat ≤ 255 := by
  simp [firstUnsupported, List.findIdx?_eq_none_iff]

theorem byteModeStream_length (m : BitVec 4) (l : List Byte) :
    (byteModeStream m l).length = 12 + 8 * l.length := by
  simp only [byteModeStream, List.length_append, bits4_length, bin8_length, flatMap_bin8_length]

theorem encodeInput_cases (P : Params) (s : State) :
    (255 < s.len.toNat ∧ encodeInput P s = .error (.lengthOverflow s.len.toNat)) ∨
    (∃ i, s.len.toNat ≤ 255 ∧ firstUnsupported s.inputString = some i ∧
      encodeInput P s = .error (.unsupportedCharacter i)) ∨
    (s.len.toNat ≤ 255 ∧ firstUnsupported s.inputString = none ∧
      encodeInput P s =
        .ok (byteModeStream P.modeByte (s.inputString.map fun c => c.setWidth 8))) := by
  unfold encodeInput
  by_cases h : 255 < s.len.toNat
  · exact .inl ⟨h, if_pos h⟩
  · rw [if_neg h]
    cases hf : firstUnsupported s.inputString with
    | some i => exact .inr (.inl ⟨i, by omega, rfl, rfl⟩)
    | none => exact .inr (.inr ⟨by omega, rfl, rfl⟩)

/-- A stream ENC or SYM builds has `12 + 8 * LEN` bits, at most 2052 (R132). -/
theorem encodeInput_length {P : Params} {s : State} {w : Bits} (h : encodeInput P s = .ok w) :
    w.length = 12 + 8 * s.len.toNat ∧ s.len.toNat ≤ 255 := by
  rcases encodeInput_cases P s with ⟨_, he⟩ | ⟨i, _, _, he⟩ | ⟨hl, _, he⟩ <;> rw [he] at h
  · cases h
  · cases h
  · cases h
    exact ⟨by rw [byteModeStream_length, List.length_map, State.inputString_length], hl⟩

/-! ### The finisher (R141, R143) -/

theorem finishStream_cases (P : Params) (T : Nat) (w : Bits) :
    (P.bsMax < finishedLength w.length T ∧
      finishStream P T w = .error (.bufferOverflow (finishedLength w.length T))) ∨
    (finishedLength w.length T ≤ P.bsMax ∧ finishStream P T w = .ok (finishBits T w)) := by
  unfold finishStream
  by_cases h : P.bsMax < finishedLength w.length T
  · exact .inl ⟨h, if_pos h⟩
  · exact .inr ⟨by omega, if_neg h⟩

/-! ### The error-correction encoder (R157, R158, R160) -/

theorem rsStep_length {P : Params} (hP : P.valid = true) {r : List Byte} (hr : r.length = 7)
    (d : Byte) : (rsStep P r d).length = 7 := by
  simp [rsStep, hr, (Params.rsGen_shape hP).1]

theorem rsRemainder_length {P : Params} (hP : P.valid = true) (d : List Byte) :
    (rsRemainder P d).length = 7 := by
  have h : ∀ r : List Byte, r.length = 7 → (d.foldl (rsStep P) r).length = 7 := by
    induction d with
    | nil => exact fun r hr => hr
    | cons x d ih => exact fun r hr => ih _ (rsStep_length hP hr x)
  exact h _ (by simp [nEc])

theorem protectBits_length {P : Params} (hP : P.valid = true) (w : Bits) :
    (protectBits P w).length = w.length + 56 := by
  simp [protectBits, rsRemainder_length hP]

theorem protectStream_cases (P : Params) (w : Bits) :
    (248 < w.length / 8 ∧ protectStream P w = .error (.blockTooLong (w.length / 8))) ∨
    (w.length / 8 ≤ 248 ∧ protectStream P w = .ok (protectBits P w)) := by
  unfold protectStream kMax
  by_cases h : 248 < w.length / 8
  · exact .inl ⟨h, if_pos h⟩
  · exact .inr ⟨by omega, if_neg h⟩

/-! ### The drawing (R181, R185, R186) -/

theorem mem_setModule {P : Params} {S B : Nat} {m : DrawnModule} {p : PixWrite} :
    p ∈ setModule P S B m ↔ ∃ dy < S, ∃ dx < S,
      p = ⟨((B : Int) + m.mx) * S + dx, ((B : Int) + m.my) * S + dy,
        if m.dark then P.darkBit else !P.darkBit⟩ := by
  simp only [setModule, List.mem_flatMap, List.mem_range, List.mem_map]
  constructor
  · rintro ⟨dy, hy, dx, hx, rfl⟩
    exact ⟨dy, hy, dx, hx, rfl⟩
  · rintro ⟨dy, hy, dx, hx, rfl⟩
    exact ⟨dy, hy, dx, hx, rfl⟩

theorem PixWrite.inside_iff {w h : Nat} {p : PixWrite} :
    p.inside w h = true ↔ (0 ≤ p.x ∧ p.x < w) ∧ 0 ≤ p.y ∧ p.y < h := by
  simp only [PixWrite.inside, Bool.and_eq_true, decide_eq_true_eq, and_assoc]

theorem drawnWrites_cases (P : Params) (s : State) (ms : Nat → List DrawnModule) :
    (∃ c, checkParams s = .error c ∧ drawnWrites P s ms = .error c) ∨
    (∃ n ws, checkParams s = .ok n ∧ ws = writeList P s.scale.toNat s.border.toNat (ms n) ∧
      ((ws.all (PixWrite.inside s.gridW.toNat s.gridH.toNat) = true ∧
          drawnWrites P s ms = .ok ws) ∨
        (ws.all (PixWrite.inside s.gridW.toNat s.gridH.toNat) = false ∧
          drawnWrites P s ms = .error .gridBoundsViolation))) := by
  unfold drawnWrites
  cases hc : checkParams s with
  | error c => exact .inl ⟨c, rfl, rfl⟩
  | ok n =>
    refine .inr ⟨n, _, rfl, rfl, ?_⟩
    by_cases h : (writeList P s.scale.toNat s.border.toNat (ms n)).all
        (PixWrite.inside s.gridW.toNat s.gridH.toNat) = true
    · exact .inl ⟨h, if_pos h⟩
    · exact .inr ⟨Bool.eq_false_iff.2 h, if_neg h⟩

theorem assembledWrites_cases (P : Params) (s : State) :
    (∃ c, checkParams s = .error c ∧ assembledWrites P s = .error c) ∨
    (∃ n ws, checkParams s = .ok n ∧
      ws = writeList P s.scale.toNat s.border.toNat (symbolModules P s.version.toNat n) ∧
      ((ws.all (PixWrite.inside (canvasDim n s.scale.toNat s.border.toNat)
          (canvasDim n s.scale.toNat s.border.toNat)) = true ∧
          assembledWrites P s = .ok (n, ws)) ∨
        (ws.all (PixWrite.inside (canvasDim n s.scale.toNat s.border.toNat)
          (canvasDim n s.scale.toNat s.border.toNat)) = false ∧
          assembledWrites P s = .error .gridBoundsViolation))) := by
  unfold assembledWrites
  cases hc : checkParams s with
  | error c => exact .inl ⟨c, rfl, rfl⟩
  | ok n =>
    refine .inr ⟨n, _, rfl, rfl, ?_⟩
    by_cases h : (writeList P s.scale.toNat s.border.toNat (symbolModules P s.version.toNat n)).all
        (PixWrite.inside (canvasDim n s.scale.toNat s.border.toNat)
          (canvasDim n s.scale.toNat s.border.toNat)) = true
    · exact .inl ⟨h, if_pos h⟩
    · exact .inr ⟨Bool.eq_false_iff.2 h, if_neg h⟩

/-- A canvas fits a 32-bit register (R212). -/
theorem canvasDim_bounds {n S B : Nat} (hn : 21 ≤ n ∧ n ≤ 49) (hS : 1 ≤ S ∧ S < 256) (hB : B < 256) :
    21 ≤ canvasDim n S B ∧ canvasDim n S B ≤ 142545 := by
  unfold canvasDim
  constructor
  · nlinarith [hn.1, hS.1]
  · have h1 : n + 2 * B ≤ 559 := by omega
    have h2 : S ≤ 255 := by omega
    calc (n + 2 * B) * S ≤ 559 * 255 := Nat.mul_le_mul h1 h2
      _ = 142545 := rfl

/-! ### The stream commands, when their checks pass -/

theorem encodeInput_ok {P : Params} {s : State} (hl : s.len.toNat ≤ 255)
    (hc : ∀ i < s.len.toNat, (s.readIn i).toNat ≤ 255) :
    encodeInput P s = .ok (byteModeStream P.modeByte (s.inputString.map fun c => c.setWidth 8)) := by
  have hf : firstUnsupported s.inputString = none := by
    refine firstUnsupported_none.2 fun x hx => ?_
    obtain ⟨i, hi, rfl⟩ := List.mem_map.1 hx
    exact hc i (List.mem_range.1 hi)
  simp [encodeInput, hf, Nat.not_lt.2 hl]

theorem finCmd_ok {P : Params} {s : State} (h1 : s.bslen.toNat ≤ P.bsMax)
    (h2 : s.bslen.toNat ≤ s.target.toNat)
    (h3 : finishedLength s.bslen.toNat s.target.toNat ≤ P.bsMax) :
    finCmd P s = .ok (s.writeStream (finishBits s.target.toNat s.stream)) := by
  simp [finCmd, finishStream, Nat.not_lt.2 h1, Nat.not_lt.2 h2, Nat.not_lt.2 h3]

theorem eccCmd_ok {P : Params} {s : State} (h1 : s.bslen.toNat ≤ P.bsMax)
    (h2 : s.bslen.toNat % 8 = 0) (h3 : s.bslen.toNat / 8 ≤ 248) :
    eccCmd P s = .ok (s.writeStream (protectBits P s.stream)) := by
  simp [eccCmd, protectStream, kMax, Nat.not_lt.2 h1, h2, Nat.not_lt.2 h3]

end Sys2Proof.Machine
end

