-- ==== Sys2Proof/Laws/PerInstr.lean ====
section
/-! SUPPORT. Statements made once per command about the command as syntax. The family `CommandWord`:
the word of a command has its reserved bits 0, carries the command's opcode in bits 3:0 and, for the
commands that take none, tier 0 (30_encoding.md R91, R92). -/

namespace Sys2Proof.Laws.CommandWord

/-- The fields of a command's word (R91). -/
def Statement (i : Instr) : Prop :=
  (encode i).extractLsb' 6 2 = 0 ∧ (encode i).extractLsb' 0 4 = opOf i ∧
    (i.tier? = none → (encode i).extractLsb' 4 2 = 0)

theorem nop : Statement .nop := by unfold Statement; decide
theorem sel (t : Tier) : Statement (.sel t) := by cases t <;> (unfold Statement; decide)
theorem enc : Statement .enc := by unfold Statement; decide
theorem fin : Statement .fin := by unfold Statement; decide
theorem ecc : Statement .ecc := by unfold Statement; decide
theorem dec : Statement .dec := by unfold Statement; decide
theorem sym (t : Tier) : Statement (.sym t) := by cases t <;> (unfold Statement; decide)
theorem drf : Statement .drf := by unfold Statement; decide
theorem dra : Statement .dra := by unfold Statement; decide
theorem drt : Statement .drt := by unfold Statement; decide
theorem asm : Statement .asm := by unfold Statement; decide
theorem rst : Statement .rst := by unfold Statement; decide

end Sys2Proof.Laws.CommandWord
end

