-- ==== Sys2Proof/Laws/Step.lean ====
section
/-! SUPPORT. What one step of the machine can do, said once. -/

namespace Sys2Proof.Machine

theorem step_busy {s : State} (h : s.busy = true) : step s = busyStep s := by
  simp [step, advance, h]

theorem step_idle {s : State} (h : s.busy = false) : step s = idleStep s := by
  simp [step, advance, h]

/-- The inversion of a step: the block executes the word in CMD, something happens during a command,
the block sits idle, or something happens on an idle block. -/
theorem step_cases (s : State) :
    (s.busy = true ∧ s.meanwhile = [] ∧ step s = runCommand s) ∨
    (∃ e rest, s.busy = true ∧ s.meanwhile = e :: rest ∧
      step s = busyEvent e { s with meanwhile := rest }) ∨
    (s.busy = false ∧ s.host = [] ∧ step s = .next s) ∨
    (∃ e rest, s.busy = false ∧ s.host = e :: rest ∧
      step s = hostEvent e { s with host := rest }) := by
  cases hb : s.busy with
  | true =>
    rw [step_busy hb]
    unfold busyStep
    cases s.meanwhile with
    | nil => exact .inl ⟨rfl, rfl, rfl⟩
    | cons e rest => exact .inr (.inl ⟨e, rest, rfl, rfl, rfl⟩)
  | false =>
    rw [step_idle hb]
    unfold idleStep
    cases s.host with
    | nil => exact .inr (.inr (.inl ⟨rfl, rfl, rfl⟩))
    | cons e rest => exact .inr (.inr (.inr ⟨e, rest, rfl, rfl, rfl⟩))

/-- What the block's execution of CMD answers: a command's meaning, or the IllegalCommand report. -/
theorem runCommand_cases (s : State) :
    (∃ i, decode s.cmd = .ok i ∧ runCommand s = exec i s) ∨
    (∃ r, decode s.cmd = .error r ∧
      runCommand s = .next (s.raise (.illegalCommand s.cmd.toNat))) := by
  unfold runCommand
  cases decode s.cmd with
  | ok i => exact .inl ⟨i, rfl, rfl⟩
  | error r => exact .inr ⟨r, rfl, rfl⟩

@[simp] theorem busy_issue (w : Byte) (m : List BusyEvent) (s : State) :
    (s.issue w m).busy = true := by
  show statusBusy.getLsbD 0 = true
  decide

@[simp] theorem busy_complete (s : State) : s.complete.busy = false := by
  show statusDone.getLsbD 0 = false
  decide

@[simp] theorem busy_raise (c : Cause) (s : State) : (s.raise c).busy = false := by
  show statusFault.getLsbD 0 = false
  decide

end Sys2Proof.Machine
end

