-- ==== Sys2Proof/Tests/Slice0.lean ====
section
/-! SUPPORT. Tests. Expected values come from the worked examples and vectors of 95_test_vectors.md, each
named in its comment, and command words are written bit by bit from 30_encoding.md R91 to R93. A theorem
`test_witness_…` shows states that meet the hypotheses of the obligation it is named after. -/

namespace Sys2Proof.Tests

open Sys2Proof Sys2Proof.Machine

/-! ### Small states -/

/-- The reset state with a string loaded (R99, LOADSTR). -/
def withText (c : List CodePoint) : State :=
  { State.reset with len := BitVec.ofNat 16 c.length, inBuf := Buf.replace 0 c }

/-- The reset state with a stream loaded (R99, LOADBITS). -/
def withBits (w : Bits) : State :=
  { State.reset with bslen := BitVec.ofNat 16 w.length, bs := Buf.replace 0 w }

/-- The reset state with drawing parameters and a grid of the host's. -/
def drawing (version scale border : BitVec 8) (w h : BitVec 32) : State :=
  { State.reset with version := version, scale := scale, border := border, gridW := w, gridH := h }

/-- A command completes without a fault in a state that satisfies `p`. -/
def okWith (r : Except Cause State) (p : State → Bool) : Bool :=
  match r with
  | .ok t => p t
  | .error _ => false

/-- A command ends in the fault `c`. -/
def failsWith (r : Except Cause State) (c : Cause) : Bool :=
  match r with
  | .ok _ => false
  | .error d => decide (d = c)

/-- The bits of a list of zeros and ones. -/
def bits (l : List Nat) : Bits := l.map fun n => n != 0

/-- "HI" after ENC, vector V-ENC-3. -/
def hi28 : Bits :=
  bits [0, 1, 0, 0, 0, 0, 0, 0, 0, 0, 1, 0, 0, 1, 0, 0, 1, 0, 0, 0, 0, 1, 0, 0, 1, 0, 0, 1]

/-- The empty string after ENC, vector V-ENC-1. -/
def e12 : Bits := bits [0, 1, 0, 0, 0, 0, 0, 0, 0, 0, 0, 0]

/-- The defaults of the vectors. -/
abbrev dflt : Params := Params.specDefault

/-! ### Well-formedness: an ill-formed term for each check -/

theorem test_wf_command : Instr.wf (.sym .Q) = true := by decide
theorem test_wf_register_too_wide : HostAccess.wf 4096 (.wrReg 7 256) = false := by decide
theorem test_wf_register_widest : HostAccess.wf 4096 (.wrReg 7 255) = true := by decide
theorem test_wf_absent_register : HostAccess.wf 4096 (.wrReg 15 999) = true := by decide
theorem test_wf_in_index : HostAccess.wf 4096 (.wrIn 255 0) = false := by decide
theorem test_wf_in_read_index : HostAccess.wf 4096 (.rdIn 255) = false := by decide
theorem test_wf_bs_index : HostAccess.wf 4096 (.wrBs 4096 true) = false := by decide
theorem test_wf_bs_read_index : HostAccess.wf 4096 (.rdBs 4096) = false := by decide
theorem test_wf_out_index : HostAccess.wf 4096 (.wrOut 255 0) = false := by decide
theorem test_wf_out_read_index : HostAccess.wf 4096 (.rdOut 255) = false := by decide
theorem test_wf_pixel_x : HostAccess.wf 4096 (.setPix (2 ^ 32) 0 true) = false := by decide
theorem test_wf_pixel_y : HostAccess.wf 4096 (.getPix 0 (2 ^ 32)) = false := by decide

/-! ### Decoding: every word written out as rsv, tier, op -/

theorem test_decode_nop : decode 0b00000000 = .ok .nop := by decide
theorem test_decode_sel_l : decode 0b00000001 = .ok (.sel .L) := by decide
theorem test_decode_sel_h : decode 0b00110001 = .ok (.sel .H) := by decide
theorem test_decode_enc : decode 0b00000010 = .ok .enc := by decide
theorem test_decode_fin : decode 0b00000011 = .ok .fin := by decide
theorem test_decode_ecc : decode 0b00000100 = .ok .ecc := by decide
theorem test_decode_dec : decode 0b00000101 = .ok .dec := by decide
theorem test_decode_sym_m : decode 0b00010110 = .ok (.sym .M) := by decide
theorem test_decode_sym_q : decode 0b00100110 = .ok (.sym .Q) := by decide
theorem test_decode_drf : decode 0b00000111 = .ok .drf := by decide
theorem test_decode_dra : decode 0b00001000 = .ok .dra := by decide
theorem test_decode_drt : decode 0b00001001 = .ok .drt := by decide
theorem test_decode_asm : decode 0b00001010 = .ok .asm := by decide
theorem test_decode_rst : decode 0b00001111 = .ok .rst := by decide
/-- V-CMD-7. -/
theorem test_decode_reserved_opcode : decode 0b00001011 = .error .reservedOpcode := by decide
/-- V-CMD-9. -/
theorem test_decode_tier_not_taken : decode 0b00010010 = .error .tierNotTaken := by decide
/-- V-CMD-12. -/
theorem test_decode_reserved_bits : decode 0b01000001 = .error .reservedBits := by decide
theorem test_decode_table_word : decodeTableWord 8 0x36 = some (.sym .H) := by decide
/-- R96: 18 of the 256 words are legal. -/
theorem test_decode_count :
    ((List.range 256).filter fun w => (decodeTableWord 8 w).isSome).length = 18 := by decide

/-! ### One step of each command -/

/-- V-SYS-2. -/
theorem test_nop :
    exec .nop { State.reset with status := 0b110, errcode := 4, errinfo := 7, bslen := 20 } =
      .next { State.reset with status := 0b010, bslen := 20 } := by
  rfl

/-- V-SYS-3. -/
theorem test_rst : okWith (rstCmd { drawing 1 3 2 75 75 with
      cmd := 0x0F, bslen := 184, target := 128, outlen := 2, len := 2 }) (fun t =>
    t.cmd == 0x0F && (List.range 15).all fun n => n == 0 || n == 1 || t.readReg n == 0) = true := by
  decide

/-- V-SEL-2: 153 bits at tier L. -/
theorem test_sel_next_version : okWith (selCmd dflt .L { State.reset with bslen := 153 }) (fun t =>
    t.version == 2 && t.target == 272) = true := by decide

/-- V-SEL-1: 641 bits at tier H. -/
theorem test_sel_overflow : failsWith (selCmd dflt .H { State.reset with bslen := 641 })
    (.capacityExceeded 641) = true := by decide

/-- V-ENC-3. -/
theorem test_enc_hi : okWith (encCmd dflt (withText [0x48, 0x49])) (fun t =>
    t.bslen == 28 && t.stream == hi28) = true := by decide

/-- V-ENC-7. -/
theorem test_enc_unsupported : failsWith (encCmd dflt (withText [0x41, 0x100, 0x2000]))
    (.unsupportedCharacter 1) = true := by decide

/-- V-FIN-18: the stream ends in `EC 11 EC`. -/
theorem test_fin_fill : okWith (finCmd dflt { withBits e12 with target := 40 }) (fun t =>
    t.bslen == 40 && bytes t.stream == [0x40, 0x00, 0xEC, 0x11, 0xEC]) = true := by decide

/-- V-FIN-12: the result passes an unaligned target. -/
theorem test_fin_passes_target : okWith (finCmd dflt { withBits e12 with target := 13 }) (fun t =>
    t.bslen == 16 && bytes t.stream == [0x40, 0x00]) = true := by decide

/-- V-ECC-14. -/
theorem test_ecc_redundancy : rsRemainder dflt [0x40, 0x24, 0x84, 0x90] =
    [0x5C, 0x2C, 0x9F, 0x86, 0x86, 0x73, 0xEC] := by decide

/-- V-ECC-31. -/
theorem test_ecc_stream : okWith (eccCmd dflt (withBits ([0x40, 0x00].flatMap bin8))) (fun t =>
    t.bslen == 72 &&
      bytes t.stream == [0x40, 0x00, 0x7D, 0x8B, 0x64, 0x4A, 0xCE, 0x68, 0x3E]) = true := by decide

/-- V-DEC-7. -/
theorem test_dec_hi : okWith (decCmd dflt (withBits hi28)) (fun t =>
    t.outlen == 2 && t.readOut 0 == 0x48 && t.readOut 1 == 0x49 && t.bslen == 28) = true := by
  decide

/-- V-DEC-12. -/
theorem test_dec_mismatch : failsWith (decCmd dflt (withBits (bits [0, 1, 0, 1])))
    (.formatMismatch 5) = true := by decide

set_option maxRecDepth 4000 in
/-- V-SYM-4. -/
theorem test_sym_hi : okWith (symCmd dflt .H (withText [0x48, 0x49])) (fun t =>
    t.version == 1 && t.target == 72 && t.bslen == 128 &&
      bytes t.stream == [0x40, 0x24, 0x84, 0x90, 0xEC, 0x11, 0xEC, 0x11, 0xEC, 0xA3, 0xEC, 0xDD,
        0x03, 0x65, 0x6B, 0x03]) = true := by decide

/-- V-SYM-18. -/
theorem test_sym_overflow : failsWith (symCmd dflt .L { State.reset with len := 256 })
    (.lengthOverflow 256) = true := by decide

set_option maxRecDepth 4000 in
/-- V-DRF-1: 147 writes; `(0, 0)` dark, `(1, 1)` light, `(20, 0)` dark. -/
theorem test_drf : okWith (drfCmd dflt (drawing 1 1 0 21 21)) (fun t =>
    t.pix.cells.length == 147 && t.pix.get 0 0 && !t.pix.get 1 1 && t.pix.get 20 0) = true := by
  decide

/-- V-DRF-5: a grid one column too narrow. -/
theorem test_drf_bounds : failsWith (drfCmd dflt (drawing 1 1 0 20 21)) .gridBoundsViolation =
    true := by decide

set_option maxRecDepth 4000 in
/-- V-DRA-3: 150 pixels on a 41 by 41 grid; `(22, 22)` dark, `(21, 22)` light, `(38, 38)` dark. -/
theorem test_dra : okWith (draCmd dflt (drawing 7 1 0 41 41)) (fun t =>
    t.pix.cells.length == 150 && t.pix.get 22 22 && !t.pix.get 21 22 && t.pix.get 38 38) = true := by
  decide

/-- V-DRA-3: 40 columns are too few. -/
theorem test_dra_bounds : failsWith (draCmd dflt (drawing 7 1 0 40 41)) .gridBoundsViolation =
    true := by decide

/-- V-DRT-4: `SCALE = 2`, `BORDER = 1`; 68 different pixels, `(15, 15)` dark, `(16, 14)` light. -/
theorem test_drt : okWith (drtCmd dflt (drawing 1 2 1 46 46)) (fun t =>
    t.pix.cells.length == 68 && t.pix.get 15 15 && !t.pix.get 16 14) = true := by decide

/-- V-DRT-3: the row fits, the column does not. -/
theorem test_drt_bounds : failsWith (drtCmd dflt (drawing 1 1 0 15 7)) .gridBoundsViolation =
    true := by decide

set_option maxRecDepth 4000 in
/-- V-ASM-1: 161 different pixels on a canvas of 21 by 21. -/
theorem test_asm : okWith (asmCmd dflt (drawing 1 1 0 0 0)) (fun t =>
    t.msize == 21 && t.dim == 21 && t.gridW == 21 && t.gridH == 21 &&
      t.pix.init == some (21, 21) && t.pix.cells.length == 161) = true := by decide

/-- V-ASM-5: a centre outside the canvas changes nothing. -/
theorem test_asm_bounds : failsWith (asmCmd { dflt with align := [[], [6, 24]] }
    (drawing 2 1 0 7 9)) .gridBoundsViolation = true := by decide

/-- V-CMD-13: an illegal word through the whole step. -/
theorem test_illegal_word : step (State.reset.withFetchWord 8 0x4A) =
    .next { State.reset with cmd := 0x4A, status := 0b110, errcode := 6, errinfo := 74 } := by
  rfl

/-- R23, R288: a CMD write, then the command. -/
theorem test_issue : step { State.reset with host := [.access (.wrReg 0 0x0A)] } =
    .next { State.reset with cmd := 0x0A, status := 0b001 } := by
  rfl

/-- V-FLT-6: the checks of ASM in order. -/
theorem test_asm_bad_version : step (State.reset.withFetchWord 8 0x0A) =
    .next { State.reset with cmd := 0x0A, status := 0b110, errcode := 7, errinfo := 7 } := by
  rfl

/-- R290: a read of LEN while a command runs is refused. -/
theorem test_busy_access :
    step { State.reset with status := 0b001, meanwhile := [.access (.rdReg 4)] } =
      .refused (.hostAccessWhileBusy (.rdReg 4)) := by
  rfl

/-! ### Witnesses: states and operands that meet the hypotheses of each obligation -/

/-- 255 characters, every one `x`: an admitted string at the greatest length. -/
def fullText (n : Nat) (x : CodePoint) : State := withText (List.replicate n x)

/-- The reset state with BSLEN and TARGET written. -/
def lengths (bslen target : BitVec 16) : State :=
  { State.reset with bslen := bslen, target := target }

theorem admitted_replicate {n : Nat} (hn : n ≤ 255) {x : CodePoint} (hx : x.toNat ≤ 255) :
    (fullText n x).Admitted ∧ (fullText n x).len.toNat = n := by
  have hl : (fullText n x).len.toNat = n := by
    show (BitVec.ofNat 16 (List.replicate n x).length).toNat = n
    rw [List.length_replicate, BitVec.toNat_ofNat]
    omega
  refine ⟨⟨by omega, fun i hi => ?_⟩, hl⟩
  have : (fullText n x).readIn i = x := by
    show (Buf.replace 0 (List.replicate n x)).read Config.freeIn i = x
    rw [Buf.read_replace, List.getElem?_replicate, if_pos (by omega)]
    rfl
  rw [this]
  exact hx

theorem test_witness_DecodeReadsTheOpcodeMap :
    (0x0B : Byte) ∉ legalWords ∧ (0x10 : Byte) ∉ legalWords ∧ (0xFF : Byte) ∉ legalWords := by
  decide

theorem test_witness_DecodeAndEncodeAgree : decode 0x31 = .ok (.sel .H) := by decide

theorem test_witness_StepExecutesIssuedCommand :
    (State.reset.withFetchWord 8 0x31).busy = true ∧
      (State.reset.withFetchWord 8 0x31).meanwhile = [] ∧
      decode (State.reset.withFetchWord 8 0x31).cmd = .ok (.sel .H) := by decide

theorem test_witness_CmdWriteIssuesCommand :
    State.reset.busy = false ∧
      ({ State.reset with host := [.access (.wrReg 0 (0xFF : Byte).toNat)] } : State).host =
        .access (.wrReg 0 (0xFF : Byte).toNat) :: [] ∧
      ({ State.reset with host := [.issue 0 [.hardReset]] } : State).host =
        .issue 0 [.hardReset] :: [] := by decide

theorem test_witness_IllegalWordRaisesIllegalCommand :
    (State.reset.withFetchWord 8 0xFF).busy = true ∧
      (State.reset.withFetchWord 8 0xFF).meanwhile = [] ∧
      (State.reset.withFetchWord 8 0xFF).cmd ∉ legalWords := by decide

theorem test_witness_IdleBlockExecutesNothing :
    State.reset.busy = false ∧ State.reset.host = [] := by decide

theorem test_witness_FaultsArePrecise :
    exec .drf State.reset = .next (State.reset.endsInFault 7 7) ∧
      (State.reset.endsInFault 7 7).status = 0b110 := ⟨rfl, rfl⟩

theorem test_witness_ChecksInOrder :
    ((.drt, timingModules) : Instr × (Nat → List DrawnModule)) ∈
        [(.drf, finderModules), (.dra, alignModules Config.params 8), (.drt, timingModules)] ∧
      ({ State.reset with cmd := 0x0E } : State).cmd ∉ legalWords :=
  ⟨.tail _ (.tail _ (.head _)), by decide⟩

theorem choose_one_M {n : Nat} (h : n ≤ 128) : choose Config.params .M n = some 1 := by
  simp [choose, versions, Config.capOf_one_M, h]

theorem choose_overflow_H {n : Nat} (h : 640 < n) : choose Config.params .H n = none := by
  refine choose_none.2 fun v hv => ?_
  have := Params.capOf_le_of_le Config.params_valid (mem_versions.1 hv).1 (mem_versions.1 hv).2
    (Nat.le_refl 8) .H
  rw [Config.capOf_eight_H] at this
  omega

/-- SEL M on at most 128 bits, the completed form. -/
theorem sel_one_M {s : State} (h : s.bslen.toNat ≤ 128) :
    exec (.sel .M) s = .next (s.setVersion Config.params .M 1).complete := by
  show conclude s (selCmd Config.params .M s) = _
  simp [selCmd, selectVersion, choose_one_M h]

theorem test_witness_SelSelectsLeastVersion :
    ((1 : Nat) ∈ versions ∧
      (lengths 128 0).bslen.toNat ≤ Config.params.capOf 1 .M ∧
      ∀ u ∈ versions, u < 1 → Config.params.capOf u .M < 128) ∧
    ((8 : Nat) ∈ versions ∧
      (lengths 640 0).bslen.toNat ≤ Config.params.capOf 8 .H ∧
      ∀ u ∈ versions, u < 8 → Config.params.capOf u .H <
        (lengths 640 0).bslen.toNat) ∧
    Config.params.capOf 8 .H < (lengths 641 0).bslen.toNat := by
  refine ⟨⟨by decide, by rw [Config.capOf_one_M]; decide, fun u hu h => ?_⟩,
    ⟨by decide, by rw [Config.capOf_eight_H]; decide, fun u hu h => ?_⟩,
    by rw [Config.capOf_eight_H]; decide⟩
  · have := mem_versions.1 hu; omega
  · have := Params.capOf_lt Config.params_valid (mem_versions.1 hu).1 h (Nat.le_refl 8) .H
    rw [Config.capOf_eight_H] at this
    exact this

theorem test_witness_SelectorLaws :
    (lengths 128 0).bslen.toNat = Config.params.capOf 1 .M ∧
    641 ≤ (lengths 641 0).bslen.toNat ∧
    (∃ t u, exec (.sel .M) State.reset = .next t ∧ t.status = 0b010 ∧
      exec (.sel .M) (lengths 128 0) = .next u ∧ u.status = 0b010 ∧
      State.reset.bslen.toNat ≤ 128 ∧
      ∃ d, exec .fin t = .next d) := by
  refine ⟨by rw [Config.capOf_one_M]; decide, by decide, _, _, sel_one_M (by decide), by decide,
    sel_one_M (by decide), by decide, by decide, _, rfl⟩

theorem test_witness_EncWritesByteModeStream :
    (withText []).Admitted ∧ (fullText 255 255).Admitted ∧ (fullText 255 255).len.toNat = 255 :=
  ⟨⟨by decide, fun i hi => absurd hi (Nat.not_lt_zero i)⟩, (admitted_replicate (by decide) (by decide)).1,
    (admitted_replicate (by decide) (by decide)).2⟩

theorem test_witness_LengthOverflowRaised :
    255 < ({ State.reset with len := 256 } : State).len.toNat ∧
      ({ State.reset with len := 255 } : State).len.toNat ≤ 255 := by decide

theorem test_witness_UnsupportedCharacterRaised :
    (withText [255, 256]).len.toNat ≤ 255 ∧ 1 < (withText [255, 256]).len.toNat ∧
      255 < ((withText [255, 256]).readIn 1).toNat ∧
      ∀ j < 1, ((withText [255, 256]).readIn j).toNat ≤ 255 := by decide

theorem test_witness_DecodeUndoesEncode : (withText [0, 255]).Admitted :=
  ⟨by decide, fun i hi => by
    have : i < 2 := hi
    interval_cases i <;> decide⟩

/-- FIN, the completed form. -/
theorem fin_completes {s : State} (h1 : s.bslen.toNat ≤ 2052) (h2 : s.bslen.toNat ≤ s.target.toNat)
    (h3 : finishedLength s.bslen.toNat s.target.toNat ≤ 2052) :
    exec .fin s = .next (s.writeStream (finishBits s.target.toNat s.stream)).complete := by
  have hb := Config.bsMax_bounds.1
  show conclude s (finCmd Config.params s) = _
  rw [finCmd_ok (by omega) h2 (by omega), conclude_ok]

/-- ECC, the completed form. -/
theorem ecc_completes {s : State} (h1 : s.bslen.toNat ≤ 1984) (h2 : s.bslen.toNat % 8 = 0) :
    exec .ecc s = .next (s.writeStream (protectBits Config.params s.stream)).complete := by
  have hb := Config.bsMax_bounds.1
  show conclude s (eccCmd Config.params s) = _
  rw [eccCmd_ok (by omega) h2 (by omega), conclude_ok]

theorem test_witness_DecodeIgnoresWhatFollowsThePayload :
    ∃ t u v : State, (withText []).Admitted ∧ exec .enc (withText []) = .next t ∧
      exec .fin { t with target := 40 } = .next u ∧ u.status = 0b010 ∧
      exec .ecc u = .next v ∧ v.status = 0b010 := by
  have ha : (withText []).Admitted := ⟨by decide, fun i hi => absurd hi (Nat.not_lt_zero i)⟩
  have he : exec .enc (withText []) = .next ((withText []).replaceStream
      (byteModeStream Config.params.modeByte [])).complete := rfl
  refine ⟨_, _, _, ha, he, fin_completes (by decide) (by decide) (by decide), rfl,
    ecc_completes ?_ ?_, rfl⟩ <;> decide

theorem test_witness_FinAppendsZerosAndFillBytes :
    ∃ s : State, ∃ L1 L2 L3 : Nat, s.bslen.toNat ≤ Config.params.bsMax ∧
      s.bslen.toNat ≤ s.target.toNat ∧
      L1 = s.bslen.toNat + min 4 (s.target.toNat - s.bslen.toNat) ∧ L2 = (L1 + 7) / 8 * 8 ∧
      L3 = max L2 (8 * (s.target.toNat / 8)) ∧ L3 ≤ Config.params.bsMax ∧
      s.bslen.toNat < L2 ∧ L2 < L3 := by
  have hb := Config.bsMax_bounds.1
  have h : ({ withBits e12 with target := 40 } : State).bslen.toNat = 12 := by decide
  have h' : ({ withBits e12 with target := 40 } : State).target.toNat = 40 := by decide
  exact ⟨{ withBits e12 with target := 40 }, 16, 16, 40, by omega, by omega, by omega, by omega,
    by omega, by omega, by omega, by omega⟩

theorem test_witness_FinRefusesWhatDoesNotFit :
    dflt.bsMax < (lengths 4097 0).bslen.toNat ∧
    ((lengths 0 2045).bslen.toNat ≤ Config.params.bsMax ∧
      (lengths 0 2045).bslen.toNat ≤ (lengths 0 2045).target.toNat ∧
      (lengths 0 2045).target.toNat + 7 ≤ Config.params.bsMax) ∧
    ((lengths 28 27).bslen.toNat ≤ Config.params.bsMax ∧
      (lengths 28 27).target.toNat <
        (lengths 28 27).bslen.toNat) ∧
    ∃ s : State, s.bslen.toNat ≤ Config.params.bsMax ∧ s.bslen.toNat ≤ s.target.toNat ∧
      Config.params.bsMax < finishedLength s.bslen.toNat s.target.toNat := by
  have hb := Config.bsMax_bounds
  have h28 : (lengths 28 27).bslen.toNat = 28 := by decide
  have h0 : (lengths 0 2045).bslen.toNat = 0 := by decide
  have ht : (lengths 0 2045).target.toNat = 2045 := by decide
  refine ⟨by decide, by omega, ⟨by omega, by decide⟩, lengths (BitVec.ofNat 16 Config.params.bsMax) 65535, ?_⟩
  have h1 : (lengths (BitVec.ofNat 16 Config.params.bsMax) 65535).bslen.toNat =
      Config.params.bsMax := by
    show (BitVec.ofNat 16 Config.params.bsMax).toNat = _
    rw [BitVec.toNat_ofNat]
    omega
  have h2 : (lengths (BitVec.ofNat 16 Config.params.bsMax) 65535).target.toNat = 65535 := rfl
  rw [h1, h2]
  refine ⟨by omega, by omega, ?_⟩
  unfold finishedLength ceil8
  omega

theorem test_witness_FinishedLengthCases :
    (∃ t, exec .fin (lengths 0 8) = .next t ∧ t.status = 0b010) ∧
    (∃ t, exec .fin (lengths 0 9) = .next t ∧ t.status = 0b010 ∧
      0 + min 4 (9 - 0) ≤ 8 * (9 / 8)) ∧
    (∃ t, exec .fin { withBits e12 with target := 13 } = .next t ∧ t.status = 0b010 ∧
      8 * (13 / 8) < 12 + min 4 (13 - 12)) :=
  ⟨⟨_, fin_completes (by decide) (by decide) (by decide), rfl⟩,
    ⟨_, fin_completes (by decide) (by decide) (by decide), rfl, by decide⟩,
    ⟨_, fin_completes (by decide) (by decide) (by decide), rfl, by decide⟩⟩

theorem test_witness_NonZeroElementsHaveInverses : (1 : Byte) ≠ 0 ∧ (0xFF : Byte) ≠ 0 := by decide

theorem test_witness_RedundancyIsLinear :
    ([1, 2] : List Byte).length = ([3, 4] : List Byte).length := by decide

theorem test_witness_EccAppendsRedundancy :
    (State.reset.bslen.toNat = 8 * 0 ∧ 0 ≤ 248) ∧
      (lengths 1984 0).bslen.toNat = 8 * 248 := by decide

theorem test_witness_EccRefusesWhatItCannotProtect :
    ((lengths 28 0).bslen.toNat ≤ Config.params.bsMax ∧
      (lengths 28 0).bslen.toNat % 8 ≠ 0) ∧
    ((lengths 1992 0).bslen.toNat ≤ Config.params.bsMax ∧
      (lengths 1992 0).bslen.toNat % 8 = 0 ∧
      248 < (lengths 1992 0).bslen.toNat / 8) := by
  have hb := Config.bsMax_bounds.1
  have h1 : (lengths 28 0).bslen.toNat = 28 := by decide
  have h2 : (lengths 1992 0).bslen.toNat = 1992 := by decide
  omega

theorem test_witness_EccDependsOnTheStreamOnly :
    ∃ t t', State.reset.bslen = (lengths 0 5).bslen ∧
      State.reset.stream = (lengths 0 5).stream ∧
      exec .ecc State.reset = .next t ∧ exec .ecc (lengths 0 5) = .next t' :=
  ⟨_, _, rfl, rfl, rfl, rfl⟩

/-- A byte-mode stream of the configured block: mode indicator, count, payload. -/
def coded (count : Byte) (payload : Bits) : State :=
  withBits (bits4 Config.params.modeByte ++ bin8 count ++ payload)

theorem coded_mode (count : Byte) (payload : Bits) :
    (coded count payload).field 0 4 = Config.params.modeByte.toNat := val_bits4 _

theorem coded_count (count : Byte) (payload : Bits) :
    (coded count payload).field 4 8 = count.toNat := val_bin8 _

theorem test_witness_DecReadsThePayload :
    ((coded 0 []).bslen.toNat ≤ Config.params.bsMax ∧
      (coded 0 []).field 0 4 = Config.params.modeByte.toNat ∧ (coded 0 []).field 4 8 = 0 ∧
      12 + 8 * 0 ≤ (coded 0 []).bslen.toNat) ∧
    ((coded 255 (zeros 2040)).bslen.toNat ≤ Config.params.bsMax ∧
      (coded 255 (zeros 2040)).field 0 4 = Config.params.modeByte.toNat ∧
      (coded 255 (zeros 2040)).field 4 8 = 255 ∧
      12 + 8 * 255 ≤ (coded 255 (zeros 2040)).bslen.toNat) := by
  have hb := Config.bsMax_bounds.1
  have h1 : (coded 0 []).bslen.toNat = 12 := rfl
  have h2 : (coded 255 (zeros 2040)).bslen.toNat = 2052 := by
    show (BitVec.ofNat 16 (bits4 Config.params.modeByte ++ bin8 255 ++ zeros 2040).length).toNat = _
    simp
  exact ⟨⟨by omega, coded_mode _ _, coded_count _ _, by omega⟩, by omega, coded_mode _ _,
    coded_count _ _, by omega⟩

/-- A stream whose mode indicator is not the block's. -/
def mismatched : State := withBits (bits4 (~~~Config.params.modeByte))

theorem mismatched_mode : mismatched.field 0 4 ≠ Config.params.modeByte.toNat := by
  have h : mismatched.field 0 4 = (~~~Config.params.modeByte).toNat := val_bits4 _
  rw [h]
  generalize Config.params.modeByte = m
  revert m
  decide

/-- A stream that ends inside its count indicator. -/
def cutCount : State := { coded 0 [] with bslen := 11 }

theorem test_witness_DecRefusesWhatItCannotRead :
    (State.reset.bslen.toNat ≤ Config.params.bsMax ∧
      (lengths 3 0).bslen.toNat < 4) ∧
    (mismatched.bslen.toNat ≤ Config.params.bsMax ∧ 4 ≤ mismatched.bslen.toNat ∧
      mismatched.field 0 4 ≠ Config.params.modeByte.toNat) ∧
    (cutCount.bslen.toNat ≤ Config.params.bsMax ∧ 4 ≤ cutCount.bslen.toNat ∧
      cutCount.field 0 4 = Config.params.modeByte.toNat ∧ cutCount.bslen.toNat < 12) ∧
    ((coded 1 [true]).bslen.toNat ≤ Config.params.bsMax ∧ 12 ≤ (coded 1 [true]).bslen.toNat ∧
      (coded 1 [true]).field 0 4 = Config.params.modeByte.toNat ∧
      (coded 1 [true]).bslen.toNat < 12 + 8 * (coded 1 [true]).field 4 8) := by
  have hb := Config.bsMax_bounds.1
  have h0 : State.reset.bslen.toNat = 0 := rfl
  have h1 : mismatched.bslen.toNat = 4 := rfl
  have h2 : cutCount.bslen.toNat = 11 := rfl
  have h3 : (coded 1 [true]).bslen.toNat = 13 := rfl
  have h4 : (coded 1 [true]).field 4 8 = 1 := coded_count _ _
  exact ⟨⟨by omega, by decide⟩, ⟨by omega, by omega, mismatched_mode⟩,
    ⟨by omega, by omega, val_bits4 _, by omega⟩, ⟨by omega, by omega, coded_mode _ _, by omega⟩⟩

/-- DEC on a stream of no characters, the completed form. -/
theorem dec_completes {s : State} (h : s.bslen.toNat = 12)
    (hm : s.field 0 4 = Config.params.modeByte.toNat) (hc : s.field 4 8 = 0) :
    exec .dec s = .next (s.replaceOut (s.payload 0)).complete := by
  have hb := Config.bsMax_bounds.1
  show conclude s (decCmd Config.params s) = _
  simp [decCmd, h, hm, hc, Nat.not_lt.2 (Nat.le_trans (by decide : 12 ≤ 2052) hb)]

theorem test_witness_DecDependsOnWhatItReads :
    ∃ t t', (coded 0 []).bslen = ({ coded 0 [] with target := 5 } : State).bslen ∧
      (∀ j < 12 + 8 * (coded 0 []).field 4 8,
        (coded 0 []).readBs j = ({ coded 0 [] with target := 5 } : State).readBs j) ∧
      exec .dec (coded 0 []) = .next t ∧
      exec .dec { coded 0 [] with target := 5 } = .next t' ∧ t.status = 0b010 :=
  ⟨_, _, rfl, fun _ _ => rfl, dec_completes rfl (coded_mode _ _) (coded_count _ _),
    dec_completes rfl (val_bits4 _) (val_bin8 0), rfl⟩

theorem test_witness_SymMakesSymbolData :
    (fullText 14 0x61).Admitted ∧ (1 : Nat) ∈ versions ∧
      12 + 8 * (fullText 14 0x61).len.toNat ≤ Config.params.capOf 1 .M ∧
      (∀ u ∈ versions, u < 1 → Config.params.capOf u .M < 12 + 8 * 14) ∧
      finishedLength (12 + 8 * (fullText 14 0x61).len.toNat) (Config.params.capOf 1 .M) / 8 ≤
        248 := by
  have h := admitted_replicate (n := 14) (by decide) (x := 0x61) (by decide)
  refine ⟨h.1, by decide, by rw [h.2, Config.capOf_one_M]; decide, fun u hu hlt => ?_,
    by rw [h.2, Config.capOf_one_M]; decide⟩
  have := mem_versions.1 hu
  omega

set_option maxRecDepth 4000 in
/-- SYM M on the empty string, the completed form. -/
theorem sym_completes : ∃ e, exec (.sym .M) (withText []) = .next e ∧ e.status = 0b010 := by
  have hb := Config.bsMax_bounds.1
  have hs : symbolData Config.params .M (byteModeStream Config.params.modeByte []) =
      .ok (1, protectBits Config.params
        (finishBits 128 (byteModeStream Config.params.modeByte []))) := by
    have hf : finishStream Config.params 128 (byteModeStream Config.params.modeByte []) =
        .ok (finishBits 128 (byteModeStream Config.params.modeByte [])) := by
      have h128 : finishedLength (byteModeStream Config.params.modeByte []).length 128 = 128 := rfl
      unfold finishStream
      rw [h128, if_neg (by omega)]
    have hp : protectStream Config.params
        (finishBits 128 (byteModeStream Config.params.modeByte [])) =
        .ok (protectBits Config.params
          (finishBits 128 (byteModeStream Config.params.modeByte []))) := rfl
    have hc : choose Config.params .M (byteModeStream Config.params.modeByte []).length = some 1 :=
      choose_one_M (by decide)
    simp only [symbolData, selectVersion, hc, Config.capOf_one_M, hf, hp]
  have he : encodeInput Config.params (withText []) =
      .ok (byteModeStream Config.params.modeByte []) := rfl
  refine ⟨State.complete (((withText []).replaceStream (protectBits Config.params (finishBits 128
    (byteModeStream Config.params.modeByte [])))).setVersion Config.params .M 1), ?_, rfl⟩
  show conclude (withText []) (symCmd Config.params .M (withText [])) = _
  simp only [symCmd, he, hs, conclude_ok]

theorem test_witness_SymEqualsTheCommandSequence :
    (∃ e, exec (.sym .M) (withText []) = .next e ∧ e.status = 0b010) ∧
      ∃ e, exec (.sym .L) { State.reset with len := 256 } = .next e ∧ e.status = 0b110 :=
  ⟨sym_completes, _, rfl, rfl⟩

theorem test_witness_TierHOverflow :
    ((fullText 79 0x61).Admitted ∧ 79 ≤ (fullText 79 0x61).len.toNat) ∧
      ((fullText 78 0x61).Admitted ∧ (fullText 78 0x61).len.toNat = 78) := by
  have h := admitted_replicate (n := 79) (by decide) (x := 0x61) (by decide)
  have h' := admitted_replicate (n := 78) (by decide) (x := 0x61) (by decide)
  exact ⟨⟨h.1, by omega⟩, h'.1, h'.2⟩

theorem test_witness_TimingAgreesWithFinders :
    (8 : Nat) ∈ versions ∧ (⟨42, 6, true⟩ : DrawnModule) ∈ timingModules (matrixSize 8) ∧
      finderOffset (matrixSize 8) 42 6 = some (0, 6) := by decide

theorem test_witness_BadParameterRaised :
    Instr.asm ∈ [Instr.drf, .dra, .drt, .asm] ∧ State.reset.version.toNat = 0 ∧
      8 < (drawing 9 1 0 21 21).version.toNat ∧ 1 ≤ (drawing 8 0 0 21 21).version.toNat ∧
      (drawing 8 0 0 21 21).version.toNat ≤ 8 ∧ (drawing 8 0 0 21 21).scale.toNat = 0 := by
  decide

theorem drawable_one : (drawing 1 1 0 21 21).Drawable ∧ (drawing 7 1 0 41 41).Drawable :=
  ⟨⟨by decide, by decide, by decide⟩, by decide, by decide, by decide⟩

theorem test_witness_DrfDrawsTheFinders :
    (drawing 1 1 0 21 21).Drawable ∧
      ((drawing 1 1 0 21 21).border.toNat + (drawing 1 1 0 21 21).side) *
        (drawing 1 1 0 21 21).scale.toNat ≤ (drawing 1 1 0 21 21).gridW.toNat ∧
      (drawing 1 1 0 20 21).gridW.toNat <
        ((drawing 1 1 0 20 21).border.toNat + (drawing 1 1 0 20 21).side) *
          (drawing 1 1 0 20 21).scale.toNat :=
  ⟨drawable_one.1, by decide, by decide⟩

/-- The centres of version 7 (R195). -/
theorem centres_seven (w h : BitVec 32) :
    (drawing 7 1 0 w h).centres = [(6, 22), (22, 6), (22, 22), (22, 38), (38, 22), (38, 38)] := by
  show alignCentres 45 (Config.params.alignOf 7) = _
  rw [Config.alignOf_seven]
  decide

theorem test_witness_DraDrawsTheAlignmentPatterns :
    ((drawing 7 1 0 41 41).Drawable ∧
      ∀ p ∈ (drawing 7 1 0 41 41).centres,
        0 ≤ (((drawing 7 1 0 41 41).border.toNat : Nat) : Int) + p.1 - 2 ∧
        ((((drawing 7 1 0 41 41).border.toNat : Nat) : Int) + p.1 + 3) *
          (drawing 7 1 0 41 41).scale.toNat ≤ (drawing 7 1 0 41 41).gridW.toNat ∧
        0 ≤ (((drawing 7 1 0 41 41).border.toNat : Nat) : Int) + p.2 - 2 ∧
        ((((drawing 7 1 0 41 41).border.toNat : Nat) : Int) + p.2 + 3) *
          (drawing 7 1 0 41 41).scale.toNat ≤ (drawing 7 1 0 41 41).gridH.toNat) ∧
    ((drawing 1 1 0 0 0).Drawable ∧ (drawing 1 1 0 0 0).version.toNat = 1) ∧
    ∃ p ∈ (drawing 7 1 0 40 41).centres, (((drawing 7 1 0 40 41).gridW.toNat : Nat) : Int) <
      ((((drawing 7 1 0 40 41).border.toNat : Nat) : Int) + p.1 + 3) *
        (drawing 7 1 0 40 41).scale.toNat := by
  rw [centres_seven, centres_seven]
  exact ⟨⟨drawable_one.2, by decide⟩, ⟨⟨by decide, by decide, by decide⟩, by decide⟩,
    (38, 22), by decide, by decide⟩

theorem test_witness_DrtDrawsTheTimingLines :
    (drawing 1 1 0 15 15).Drawable ∧
      ((drawing 1 1 0 15 15).border.toNat + (drawing 1 1 0 15 15).side - 6) *
        (drawing 1 1 0 15 15).scale.toNat ≤ (drawing 1 1 0 15 15).gridW.toNat ∧
      (drawing 1 1 0 14 15).gridW.toNat <
        ((drawing 1 1 0 14 15).border.toNat + (drawing 1 1 0 14 15).side - 6) *
          (drawing 1 1 0 14 15).scale.toNat :=
  ⟨⟨by decide, by decide, by decide⟩, by decide, by decide⟩

/-- DRF, DRA and DRT complete on version 1 and a grid of 21 by 21. -/
theorem draw_completes :
    (∃ t, exec .drf (drawing 1 1 0 21 21) = .next t ∧ t.status = 0b010) ∧
    (∃ t, exec .dra (drawing 1 1 0 21 21) = .next t ∧ t.status = 0b010) ∧
    ∃ t, exec .drt (drawing 1 1 0 21 21) = .next t ∧ t.status = 0b010 := by
  refine ⟨⟨_, rfl, ?_⟩, ⟨_, rfl, ?_⟩, ⟨_, rfl, ?_⟩⟩ <;> rfl

theorem test_witness_DrawingPaintsItsModulesOnly :
    (20 : Nat) < 2 ^ 32 ∧
    (∃ t, exec .drf (drawing 1 1 0 21 21) = .next t ∧ t.status = 0b010) ∧
    (∃ t, exec .dra (drawing 1 1 0 21 21) = .next t ∧ t.status = 0b010) ∧
    ∃ t, exec .drt (drawing 1 1 0 21 21) = .next t ∧ t.status = 0b010 :=
  ⟨by decide, draw_completes⟩

theorem test_witness_RedrawingChangesNothing :
    Instr.drf ∈ [Instr.drf, .dra, .drt] ∧ ∃ t, exec .drf (drawing 1 1 0 21 21) = .next t :=
  ⟨by decide, _, rfl⟩

theorem test_witness_AsmAssemblesTheSymbol :
    ((drawing 7 1 0 0 0).Drawable ∧
      45 = ((drawing 7 1 0 0 0).side + 2 * (drawing 7 1 0 0 0).border.toNat) *
        (drawing 7 1 0 0 0).scale.toNat ∧
      ∀ p ∈ (drawing 7 1 0 0 0).centres,
        -(((drawing 7 1 0 0 0).border.toNat : Nat) : Int) ≤ p.1 - 2 ∧
        p.1 + 2 < (drawing 7 1 0 0 0).side + (drawing 7 1 0 0 0).border.toNat ∧
        -(((drawing 7 1 0 0 0).border.toNat : Nat) : Int) ≤ p.2 - 2 ∧
        p.2 + 2 < (drawing 7 1 0 0 0).side + (drawing 7 1 0 0 0).border.toNat) ∧
    ((drawing 2 1 0 0 0).Drawable ∧
      ∃ p ∈ alignCentres (drawing 2 1 0 0 0).side
          (({ dflt with align := [[], [6, 24]] } : Params).alignOf
            (drawing 2 1 0 0 0).version.toNat),
        2 ≤ (drawing 2 1 0 0 0).version.toNat ∧
          (((drawing 2 1 0 0 0).side : Nat) : Int) + (drawing 2 1 0 0 0).border.toNat ≤ p.1 + 2) := by
  rw [centres_seven]
  exact ⟨⟨⟨by decide, by decide, by decide⟩, by decide, by decide⟩,
    ⟨by decide, by decide, by decide⟩, (24, 24), by decide, by decide⟩

theorem test_witness_AsmFitsWhenCentresAreInRange :
    (drawing 7 1 0 0 0).Drawable ∧
      ∀ x ∈ Config.params.alignOf (drawing 7 1 0 0 0).version.toNat,
        2 ≤ x ∧ x ≤ ((drawing 7 1 0 0 0).side : Int) - 3 := by
  refine ⟨⟨by decide, by decide, by decide⟩, ?_⟩
  show ∀ x ∈ Config.params.alignOf 7, _
  rw [Config.alignOf_seven]
  decide

theorem test_witness_AsmEqualsConstructThenDraw :
    ∃ t, exec .asm (drawing 1 1 0 0 0) = .next t ∧ t.status = 0b010 := by
  refine ⟨_, rfl, ?_⟩
  rfl

theorem test_witness_AsmIgnoresTheBitStream :
    ∃ t t', exec .asm (drawing 1 1 0 0 0) = .next t ∧
      exec .asm { drawing 1 1 0 5 6 with bslen := 12 } = .next t' ∧ t.status = 0b010 := by
  refine ⟨_, _, rfl, rfl, ?_⟩
  rfl

theorem test_witness_OnlyNamedCommandsWriteRegisters :
    exec .nop State.reset = .next State.reset.complete ∧ Instr.nop ≠ .rst ∧ Instr.nop ≠ .enc ∧
      Instr.nop ≠ .fin ∧ Instr.nop ≠ .ecc ∧ (∀ r, Instr.nop ≠ .sym r) ∧ (∀ r, Instr.nop ≠ .sel r) ∧
      Instr.nop ≠ .dec ∧ Instr.nop ≠ .asm ∧ Instr.nop ≠ .drf ∧ Instr.nop ≠ .dra ∧
      Instr.nop ≠ .drt := by
  refine ⟨rfl, ?_, ?_, ?_, ?_, ?_, ?_, ?_, ?_, ?_, ?_, ?_⟩ <;> simp

theorem test_witness_StreamCommandsFrame :
    (∃ t, exec .fin (lengths 5 40) = .next t) ∧
    (∃ t, exec .ecc State.reset = .next t) ∧ (∃ t, exec .enc (withText [0x41]) = .next t) ∧
      ∃ t, exec (.sym .M) (withText [0x41]) = .next t :=
  ⟨⟨_, rfl⟩, ⟨_, rfl⟩, ⟨_, rfl⟩, ⟨_, rfl⟩⟩

theorem test_witness_HardwareResetClearsTheRegisters :
    (State.reset.busy = false ∧
      ({ State.reset with host := [.hardReset] } : State).host = .hardReset :: []) ∧
    (({ drawing 1 1 0 21 21 with status := 0b001, cmd := 0x07, meanwhile := [.hardReset] } :
        State).busy = true ∧ (20 : Nat) < 2 ^ 32 ∧
      pixelColour (finderModules 21) 1 0 7 6 = none ∧
      pixelColour (alignModules Config.params 1 21) 1 0 6 6 = none ∧
      pixelColour (timingModules 21) 1 0 15 6 = none) ∧
    (0x02 : Byte) ∉ [(0x07 : Byte), 0x08, 0x09, 0x0A] := by
  refine ⟨by decide, ⟨by decide, by decide, by decide, rfl, by decide⟩, by decide⟩

theorem test_witness_StepKeepsTheInvariant :
    Inv State.reset ∧ step State.reset = .next State.reset ∧
      ∃ t, step (State.reset.withFetchWord 8 0x04) = .next t := by
  refine ⟨⟨by decide, by decide, by decide, Memory.reset_wf, .inl (by decide), fun _ => rfl⟩, rfl,
    _, rfl⟩

/-- The reset state with one access of the host to make. -/
def asking (a : HostAccess) : State := { State.reset with host := [.access a] }

theorem asking_idle (a : HostAccess) : (asking a).busy = false := by
  show (0 : BitVec 8).getLsbD 0 = false
  decide

theorem test_witness_HostWritesOneRegister (n v : Nat) :
    (asking (.wrReg n v)).busy = false ∧
      (asking (.wrReg n v)).host = .access (.wrReg n v) :: [] ∧
      65535 < 2 ^ 16 ∧ 255 < 2 ^ 8 ∧ 4294967295 < 2 ^ 32 ∧ 11 ∈ [1, 2, 8, 11] ∧ 12 ∈ [3, 12] ∧
      15 ≤ 15 :=
  ⟨asking_idle _, rfl, by decide⟩

theorem test_witness_HostReadsHaveNoSideEffect (n : Nat) :
    ((asking (.rdReg n)).busy = false ∧ (asking (.rdReg n)).host = .access (.rdReg n) :: []) ∧
    (254 < 255 ∧ (asking (.rdIn 254)).busy = false ∧
      (asking (.rdIn 254)).host = .access (.rdIn 254) :: []) ∧
    (2051 < Config.params.bsMax ∧ (asking (.rdBs 2051)).busy = false ∧
      (asking (.rdBs 2051)).host = .access (.rdBs 2051) :: []) ∧
    (254 < 255 ∧ (asking (.rdOut 254)).busy = false ∧
      (asking (.rdOut 254)).host = .access (.rdOut 254) :: []) ∧
    (20 < (drawing 1 1 0 21 21).gridW.toNat ∧ 20 < (drawing 1 1 0 21 21).gridH.toNat ∧
      (drawing 1 1 0 21 21).busy = false ∧
      ({ drawing 1 1 0 21 21 with host := [.access (.getPix 20 20)] } : State).host =
        .access (.getPix 20 20) :: []) := by
  have hb := Config.bsMax_bounds.1
  exact ⟨⟨asking_idle _, rfl⟩, ⟨by decide, asking_idle _, rfl⟩, ⟨by omega, asking_idle _, rfl⟩,
    ⟨by decide, asking_idle _, rfl⟩, by decide, by decide, by decide, rfl⟩

/-- R69: a read of BSLEN returns it and changes nothing else. -/
theorem test_read_register : hostAccess (.rdReg 5) { lengths 7 0 with readData := 3 } =
    .next { lengths 7 0 with readData := 7 } := by
  rfl

theorem test_witness_HostWritesOneEntry :
    (254 < 255 ∧ (asking (.wrIn 254 7)).host = .access (.wrIn 254 7) :: []) ∧
    (2051 < Config.params.bsMax ∧ (asking (.wrBs 2051 true)).host =
      .access (.wrBs 2051 true) :: []) ∧
    (20 < (drawing 1 1 0 21 21).gridW.toNat ∧ 20 < (drawing 1 1 0 21 21).gridH.toNat ∧
      ({ drawing 1 1 0 21 21 with host := [.access (.setPix 20 20 true)] } : State).host =
        .access (.setPix 20 20 true) :: []) := by
  have hb := Config.bsMax_bounds.1
  exact ⟨⟨by decide, rfl⟩, ⟨by omega, rfl⟩, by decide, by decide, rfl⟩

theorem test_witness_BusyHostReadsStatusOnly (a : HostAccess) :
    ({ State.reset with status := 0b001, meanwhile := [.access a] } : State).busy = true ∧
      ({ State.reset with status := 0b001, meanwhile := [.access a] } : State).meanwhile =
        .access a :: [] ∧ HostAccess.rdReg 4 ≠ .rdReg 1 := by
  refine ⟨?_, rfl, by decide⟩
  show (0b001 : BitVec 8).getLsbD 0 = true
  decide

end Sys2Proof.Tests
end

section
/-! SUPPORT. The lengths of the streams FIN, ECC and SYM leave, and what a command answers when it
completes: one inversion per command, and one for every command together. -/

namespace Sys2Proof.Machine

/-! ### The finisher: `finishedLength` is the length of what `finishBits` makes (R141, R144) -/

@[simp] theorem terminate_length (T : Nat) (w : Bits) :
    (terminate T w).length = w.length + min 4 (T - w.length) := by
  simp [terminate, termMax]

/-- The alignment ends at the next multiple of 8 when its fuel reaches that far. -/
theorem alignLoop_length {fuel : Nat} {w : Bits} (h : ceil8 w.length ≤ w.length + fuel) :
    (alignLoop fuel w).length = ceil8 w.length := by
  induction fuel generalizing w with
  | zero => exact Nat.le_antisymm (le_ceil8 _) h
  | succ fuel ih =>
    rw [alignLoop]
    split
    · have hnext : ceil8 (w ++ [false]).length = ceil8 w.length := by
        simp only [List.length_append, List.length_singleton, ceil8]
        omega
      rw [ih (by rw [hnext, List.length_append, List.length_singleton]; omega), hnext]
    · unfold ceil8
      omega

/-- The fill bytes end at the last multiple of 8 up to the target when their fuel reaches that far. -/
theorem fillLoop_length {T fuel k : Nat} {w : Bits} (hw : w.length % 8 = 0)
    (h : T < w.length + 8 * (fuel + 1)) :
    (fillLoop T fuel k w).length = max w.length (8 * (T / 8)) := by
  induction fuel generalizing k w with
  | zero => rw [fillLoop]; omega
  | succ fuel ih =>
    rw [fillLoop]
    split
    · rw [ih (by simp only [List.length_append, bin8_length]; omega)
        (by simp only [List.length_append, bin8_length]; omega)]
      simp only [List.length_append, bin8_length]
      omega
    · omega

@[simp] theorem finishBits_length (T : Nat) (w : Bits) :
    (finishBits T w).length = finishedLength w.length T := by
  have halign := alignLoop_length (Nat.le_of_lt_succ (ceil8_lt (terminate T w).length))
  have hmod := ceil8_mod (terminate T w).length
  rw [finishBits, fillLoop_length (by rw [halign, hmod]) (by omega), halign, terminate_length,
    finishedLength]

theorem finishStream_ok_length {P : Params} {T : Nat} {w f : Bits}
    (h : finishStream P T w = .ok f) : f.length ≤ P.bsMax := by
  rcases finishStream_cases P T w with ⟨-, he⟩ | ⟨hle, he⟩ <;> rw [he] at h <;> cases h
  rwa [finishBits_length]

/-- At most 248 data bytes and their 7 redundancy bytes fit BS (R5, R160). -/
theorem protectStream_ok_length {P : Params} (hP : P.valid = true) {w e : Bits}
    (h : protectStream P w = .ok e) : e.length ≤ P.bsMax := by
  rcases protectStream_cases P w with ⟨-, he⟩ | ⟨hle, he⟩ <;> rw [he] at h <;> cases h
  have hbs := (Params.bsMax_bounds hP).1
  rw [protectBits_length hP]
  omega

theorem encodeInput_ok_length {P : Params} (hP : P.valid = true) {s : State} {w : Bits}
    (h : encodeInput P s = .ok w) : w.length ≤ P.bsMax := by
  obtain ⟨hlen, hle⟩ := encodeInput_length h
  have hbs := (Params.bsMax_bounds hP).1
  omega

/-! ### A completed command, one inversion each -/

theorem selCmd_inv {P : Params} {t : Tier} {s u : State} (h : selCmd P t s = .ok u) :
    ∃ v, choose P t s.bslen.toNat = some v ∧ u = s.setVersion P t v := by
  unfold selCmd at h
  rcases selectVersion_cases P t s.bslen.toNat with ⟨v, hv, he⟩ | ⟨-, he⟩ <;> rw [he] at h <;>
    cases h
  exact ⟨v, hv, rfl⟩

theorem encCmd_inv {P : Params} {s u : State} (h : encCmd P s = .ok u) :
    ∃ w, encodeInput P s = .ok w ∧ u = s.replaceStream w := by
  unfold encCmd at h
  cases he : encodeInput P s with
  | ok w => rw [he] at h; cases h; exact ⟨w, rfl, rfl⟩
  | error c => rw [he] at h; cases h

theorem finCmd_inv {P : Params} {s u : State} (h : finCmd P s = .ok u) :
    s.bslen.toNat ≤ P.bsMax ∧ s.bslen.toNat ≤ s.target.toNat ∧
      ∃ w, finishStream P s.target.toNat s.stream = .ok w ∧ u = s.writeStream w := by
  unfold finCmd at h
  split_ifs at h with hmax htarget
  cases he : finishStream P s.target.toNat s.stream with
  | ok w => rw [he] at h; cases h; exact ⟨by omega, by omega, w, rfl, rfl⟩
  | error c => rw [he] at h; cases h

theorem eccCmd_inv {P : Params} {s u : State} (h : eccCmd P s = .ok u) :
    s.bslen.toNat ≤ P.bsMax ∧ s.bslen.toNat % 8 = 0 ∧
      ∃ w, protectStream P s.stream = .ok w ∧ u = s.writeStream w := by
  unfold eccCmd at h
  split_ifs at h with hmax halign
  cases he : protectStream P s.stream with
  | ok w => rw [he] at h; cases h; exact ⟨by omega, by omega, w, rfl, rfl⟩
  | error c => rw [he] at h; cases h

theorem decCmd_inv {P : Params} {s u : State} (h : decCmd P s = .ok u) :
    s.bslen.toNat ≤ P.bsMax ∧ s.field 0 4 = P.modeByte.toNat ∧
      12 + 8 * s.field 4 8 ≤ s.bslen.toNat ∧ u = s.replaceOut (s.payload (s.field 4 8)) := by
  unfold decCmd at h
  split_ifs at h with hmax hmode hformat hcount hpayload
  cases h
  exact ⟨by omega, by omega, by omega, rfl⟩

theorem symbolData_inv {P : Params} {t : Tier} {w : Bits} {v : Nat} {e : Bits}
    (h : symbolData P t w = .ok (v, e)) :
    choose P t w.length = some v ∧
      ∃ f, finishStream P (P.capOf v t) w = .ok f ∧ protectStream P f = .ok e := by
  unfold symbolData at h
  rcases selectVersion_cases P t w.length with ⟨v', hv, he⟩ | ⟨-, he⟩ <;> simp only [he] at h
  · cases hf : finishStream P (P.capOf v' t) w with
    | error c => simp only [hf] at h; cases h
    | ok f =>
      cases hp : protectStream P f with
      | error c => simp only [hf, hp] at h; cases h
      | ok e' => simp only [hf, hp] at h; cases h; exact ⟨hv, f, hf, hp⟩
  · cases h

theorem symCmd_inv {P : Params} {t : Tier} {s u : State} (h : symCmd P t s = .ok u) :
    ∃ w v e, encodeInput P s = .ok w ∧ symbolData P t w = .ok (v, e) ∧
      u = (s.replaceStream e).setVersion P t v := by
  unfold symCmd at h
  cases hw : encodeInput P s with
  | error c => simp only [hw] at h; cases h
  | ok w =>
    cases hd : symbolData P t w with
    | error c => simp only [hw, hd] at h; cases h
    | ok r => simp only [hw, hd] at h; cases h; exact ⟨w, r.1, r.2, rfl, hd, rfl⟩

theorem drawCmd_inv {P : Params} {s u : State} {ms : Nat → List DrawnModule}
    (h : drawCmd P s ms = .ok u) :
    ∃ ws, drawnWrites P s ms = .ok ws ∧ u = { s with pix := s.pix.perform ws } := by
  unfold drawCmd at h
  cases hw : drawnWrites P s ms with
  | ok ws => rw [hw] at h; cases h; exact ⟨ws, rfl, rfl⟩
  | error c => rw [hw] at h; cases h

/-- The state ASM leaves, before its report, for a matrix of side `n` and a write list (R211). -/
def State.assembled (n : Nat) (ws : List PixWrite) (s : State) : State :=
  { s with
    msize := BitVec.ofNat 8 n
    dim := BitVec.ofNat 32 (canvasDim n s.scale.toNat s.border.toNat)
    gridW := BitVec.ofNat 32 (canvasDim n s.scale.toNat s.border.toNat)
    gridH := BitVec.ofNat 32 (canvasDim n s.scale.toNat s.border.toNat)
    pix := (s.pix.construct (canvasDim n s.scale.toNat s.border.toNat)
      (canvasDim n s.scale.toNat s.border.toNat)).perform ws }

theorem asmCmd_inv {P : Params} {s u : State} (h : asmCmd P s = .ok u) :
    ∃ n ws, assembledWrites P s = .ok (n, ws) ∧ u = s.assembled n ws := by
  unfold asmCmd at h
  cases hw : assembledWrites P s with
  | ok r => rw [hw] at h; cases h; exact ⟨r.1, r.2, rfl, rfl⟩
  | error c => rw [hw] at h; cases h

/-- The writes of a command before its report, or its fault: what `exec` concludes. -/
def commandWrites (P : Params) (s : State) : Instr → Except Cause State
  | .nop => .ok s
  | .sel t => selCmd P t s
  | .enc => encCmd P s
  | .fin => finCmd P s
  | .ecc => eccCmd P s
  | .dec => decCmd P s
  | .sym t => symCmd P t s
  | .drf => drfCmd P s
  | .dra => draCmd P s
  | .drt => drtCmd P s
  | .asm => asmCmd P s
  | .rst => rstCmd s

theorem exec_eq_conclude (i : Instr) (s : State) :
    exec i s = conclude s (commandWrites Config.params s i) := by
  cases i <;> rfl

/-- Every command completes its writes, or reports a fault on the state it started from (R253). -/
theorem exec_cases {i : Instr} {s u : State} (h : exec i s = .next u) :
    (∃ t, commandWrites Config.params s i = .ok t ∧ u = t.complete) ∨ (∃ c, u = s.raise c) := by
  rw [exec_eq_conclude] at h
  rcases conclude_cases h with hok | ⟨c, -, hc⟩
  · exact .inl hok
  · exact .inr ⟨c, hc⟩

end Sys2Proof.Machine
end

section
/-! The frame of every command (10_state.md R21, 30_encoding.md R94). -/

namespace Sys2Proof.Machine

/-- Settles O50: a fault writes the report alone, and each completed command writes what its own
inversion names. -/
theorem onlyNamedCommandsWriteRegisters : Obligations.OnlyNamedCommandsWriteRegisters := by
  intro i s u h
  obtain ⟨t, ht, rfl⟩ | ⟨c, rfl⟩ := exec_cases h
  · cases i with
    | nop => cases ht; simp
    | sel r => obtain ⟨v, -, rfl⟩ := selCmd_inv ht; simp
    | enc => obtain ⟨w, -, rfl⟩ := encCmd_inv ht; simp
    | fin => obtain ⟨-, -, w, -, rfl⟩ := finCmd_inv ht; simp
    | ecc => obtain ⟨-, -, w, -, rfl⟩ := eccCmd_inv ht; simp
    | dec => obtain ⟨-, -, -, rfl⟩ := decCmd_inv ht; simp
    | sym r => obtain ⟨w, v, e, -, -, rfl⟩ := symCmd_inv ht; simp
    | drf | dra | drt => obtain ⟨ws, -, rfl⟩ := drawCmd_inv ht; simp
    | asm => obtain ⟨n, ws, -, rfl⟩ := asmCmd_inv ht; simp [State.assembled]
    | rst => cases ht; simp
  · simp

/-- No command changes what the outside still has to do while it runs. -/
theorem exec_meanwhile {i : Instr} {s t : State} (h : exec i s = .next t) :
    t.meanwhile = s.meanwhile := by
  obtain ⟨-, -, -, hm, -⟩ := onlyNamedCommandsWriteRegisters i s t h
  exact hm

end Sys2Proof.Machine
end

section
/-! The idle block (70_reset_and_hazards.md R281). -/

namespace Sys2Proof.Machine

theorem step_idle_nil {s : State} (hb : s.busy = false) (hh : s.host = []) : step s = .next s := by
  rw [step_idle hb, idleStep, hh]

/-- Settles O6: the reset state is one idle state with an idle host. -/
theorem idleBlockExecutesNothing : Obligations.IdleBlockExecutesNothing :=
  ⟨step_idle_nil rfl rfl, fun _ => step_idle_nil⟩

end Sys2Proof.Machine
end

section
/-! The invariant of the system. It falls into the report (STATUS, ERRCODE, ERRINFO with the pending
events) and the storage (the canonical form of memory and the canvas registers): a command keeps the
storage and then reports; a host access touches one of the two. -/

namespace Sys2Proof.Machine

/-! ### The storage -/

/-- MSIZE and DIM are the result of an ASM, or 0 before the first one (R38, R212). -/
def canvasLegal (msize : BitVec 8) (dim : BitVec 32) : Prop :=
  (msize = 0 ∧ dim = 0) ∨
    ((∃ v ∈ versions, msize.toNat = matrixSize v) ∧ 21 ≤ dim.toNat ∧ dim.toNat ≤ 142545)

/-- The part of the invariant that speaks of what a command may write besides its report. -/
structure StorageInv (s : State) : Prop where
  memory : Memory.wf s
  canvas : canvasLegal s.msize s.dim

theorem Inv.storage {s : State} (h : Inv s) : StorageInv s := ⟨h.memory, h.canvas⟩

theorem StorageInv.pix {s : State} (hs : StorageInv s) : cellsWf (2 ^ 64) s.pix.cells :=
  hs.memory.2.2.2

theorem canvasLegal_zero : canvasLegal 0 0 := .inl ⟨rfl, rfl⟩

/-- The writes of a list that passed its bounds check have legal pixel keys. -/
theorem coords_lt_of_all_inside {w h : Nat} (hw : w ≤ 2 ^ 32) (hh : h ≤ 2 ^ 32)
    {ws : List PixWrite} (hall : ws.all (PixWrite.inside w h) = true) :
    ∀ p ∈ ws, p.x.toNat < 2 ^ 32 ∧ p.y.toNat < 2 ^ 32 := by
  intro p hp
  obtain ⟨⟨hx0, hx⟩, hy0, hy⟩ := PixWrite.inside_iff.1 (List.all_eq_true.1 hall p hp)
  omega

theorem drawnWrites_ok_coords {P : Params} {s : State} {ms : Nat → List DrawnModule}
    {ws : List PixWrite} (h : drawnWrites P s ms = .ok ws) :
    ∀ p ∈ ws, p.x.toNat < 2 ^ 32 ∧ p.y.toNat < 2 ^ 32 := by
  rcases drawnWrites_cases P s ms with ⟨c, -, he⟩ | ⟨n, ws', -, -, ⟨hall, he⟩ | ⟨-, he⟩⟩ <;>
    rw [he] at h <;> cases h
  exact coords_lt_of_all_inside s.gridW.isLt.le s.gridH.isLt.le hall

/-- What ASM's checks establish of its matrix side, its canvas and its write list (R184, R211,
R212). -/
theorem assembledWrites_ok_bounds {P : Params} {s : State} {n : Nat} {ws : List PixWrite}
    (h : assembledWrites P s = .ok (n, ws)) :
    (∃ v ∈ versions, n = matrixSize v) ∧
      (21 ≤ canvasDim n s.scale.toNat s.border.toNat ∧
        canvasDim n s.scale.toNat s.border.toNat ≤ 142545) ∧
      ∀ p ∈ ws, p.x.toNat < 2 ^ 32 ∧ p.y.toNat < 2 ^ 32 := by
  rcases assembledWrites_cases P s with ⟨c, -, he⟩ | ⟨n', ws', hn, -, ⟨hall, he⟩ | ⟨-, he⟩⟩ <;>
    rw [he] at h <;> cases h
  rcases checkParams_cases s with ⟨-, hc⟩ | ⟨-, -, hc⟩ | ⟨hv, hS, hc⟩ <;> rw [hc] at hn <;> cases hn
  have hdim := canvasDim_bounds (matrixSize_bounds hv)
    ⟨Nat.pos_of_ne_zero hS, s.scale.isLt⟩ s.border.isLt
  exact ⟨⟨_, hv, rfl⟩, hdim, coords_lt_of_all_inside (by omega) (by omega) hall⟩

theorem StorageInv.assembled {P : Params} {s : State} (hs : StorageInv s) {n : Nat}
    {ws : List PixWrite} (h : assembledWrites P s = .ok (n, ws)) :
    StorageInv (s.assembled n ws) := by
  obtain ⟨⟨v, hv, rfl⟩, hdim, hws⟩ := assembledWrites_ok_bounds h
  have hside := matrixSize_bounds hv
  obtain ⟨hin, hbs, hout, -⟩ := hs.memory
  refine ⟨⟨hin, hbs, hout, Grid.perform_wf (Grid.construct_wf _ _ _) hws⟩,
    .inr ⟨⟨v, hv, ?_⟩, ?_⟩⟩ <;>
    simp only [State.assembled, BitVec.toNat_ofNat] <;> omega

theorem StorageInv.replaceStream {s : State} (hs : StorageInv s) {w : Bits}
    (h : w.length ≤ Config.params.bsMax) : StorageInv (s.replaceStream w) :=
  ⟨State.replaceStream_wf hs.memory h, hs.canvas⟩

theorem StorageInv.writeStream {s : State} (hs : StorageInv s) {w : Bits}
    (h : w.length ≤ Config.params.bsMax) : StorageInv (s.writeStream w) :=
  ⟨State.writeStream_wf hs.memory h, hs.canvas⟩

theorem StorageInv.setVersion {s : State} (hs : StorageInv s) (P : Params) (t : Tier) (v : Nat) :
    StorageInv (s.setVersion P t v) :=
  ⟨hs.memory, hs.canvas⟩

theorem StorageInv.replaceOut {s : State} (hs : StorageInv s) {c : List Byte}
    (h : c.length ≤ outDepth) : StorageInv (s.replaceOut c) :=
  ⟨State.replaceOut_wf hs.memory h, hs.canvas⟩

/-- The writes of every command keep the storage well formed. -/
theorem commandWrites_storage {i : Instr} {s t : State} (hs : StorageInv s)
    (h : commandWrites Config.params s i = .ok t) : StorageInv t := by
  have hP := Config.params_valid
  cases i with
  | nop => cases h; exact hs
  | sel r => obtain ⟨v, -, rfl⟩ := selCmd_inv h; exact hs.setVersion _ r v
  | enc =>
    obtain ⟨w, hw, rfl⟩ := encCmd_inv h
    exact hs.replaceStream (encodeInput_ok_length hP hw)
  | fin =>
    obtain ⟨-, -, w, hw, rfl⟩ := finCmd_inv h
    exact hs.writeStream (finishStream_ok_length hw)
  | ecc =>
    obtain ⟨-, -, w, hw, rfl⟩ := eccCmd_inv h
    exact hs.writeStream (protectStream_ok_length hP hw)
  | dec =>
    obtain ⟨-, -, -, rfl⟩ := decCmd_inv h
    have hlen : (s.payload (s.field 4 8)).length ≤ outDepth := by
      have hcount := s.field_lt 4 8
      rw [State.payload_length, outDepth]
      omega
    exact hs.replaceOut hlen
  | sym r =>
    obtain ⟨w, v, e, -, hd, rfl⟩ := symCmd_inv h
    obtain ⟨-, f, -, he⟩ := symbolData_inv hd
    exact (hs.replaceStream (protectStream_ok_length hP he)).setVersion _ r v
  | drf | dra | drt =>
    obtain ⟨ws, hws, rfl⟩ := drawCmd_inv h
    have hpix := Grid.perform_wf hs.pix (drawnWrites_ok_coords hws)
    exact ⟨Memory.wf_pix hs.memory hpix, hs.canvas⟩
  | asm => obtain ⟨n, ws, hw, rfl⟩ := asmCmd_inv h; exact hs.assembled hw
  | rst => cases h; exact ⟨State.forgetBuffers_wf hs.memory, canvasLegal_zero⟩

/-! ### The report -/

theorem Cause.code_bounds (c : Cause) : 1 ≤ c.code.toNat ∧ c.code.toNat ≤ 12 := by
  cases c <;> simp [Cause.code]

/-- The three STATUS words that report no fault: after a reset, during a command, after one (R24). -/
theorem status_of_no_fault {s : State}
    (h : s.status = 0 ∨ s.status = statusBusy ∨ s.status = statusDone) :
    legalStatus s.status = true ∧ s.err = false := by
  unfold State.err
  rcases h with h | h | h <;> rw [h] <;> decide

/-- A state that reports no fault meets the invariant when ERRCODE and ERRINFO are clear. -/
theorem Inv.of_clear_report {s : State} (hs : StorageInv s)
    (hst : s.status = 0 ∨ s.status = statusBusy ∨ s.status = statusDone)
    (hcode : s.errcode = 0) (hinfo : s.errinfo = 0)
    (hidle : s.busy = false → s.meanwhile = []) : Inv s where
  status := (status_of_no_fault hst).1
  faultCode := by simp [(status_of_no_fault hst).2]
  noFault _ := ⟨hcode, hinfo⟩
  memory := hs.memory
  canvas := hs.canvas
  idle := hidle

/-- A state with the report and pending events of one that meets the invariant meets it too. -/
theorem Inv.of_same_report {s t : State} (h : Inv s) (ht : StorageInv t)
    (hst : t.status = s.status) (hcode : t.errcode = s.errcode) (hinfo : t.errinfo = s.errinfo)
    (hm : t.meanwhile = s.meanwhile) : Inv t where
  status := by rw [hst]; exact h.status
  faultCode := by unfold State.err; rw [hst, hcode]; exact h.faultCode
  noFault := by unfold State.err; rw [hst, hcode, hinfo]; exact h.noFault
  memory := ht.memory
  canvas := ht.canvas
  idle := by unfold State.busy; rw [hst, hm]; exact h.idle

theorem Inv.complete {t : State} (ht : StorageInv t) (hm : t.meanwhile = []) : Inv t.complete :=
  .of_clear_report ⟨ht.memory, ht.canvas⟩ (.inr (.inr rfl)) rfl rfl fun _ => hm

@[simp] theorem err_raise (c : Cause) (s : State) : (s.raise c).err = true := by
  show statusFault.getLsbD 2 = true
  decide

theorem Inv.raise {s : State} (hs : StorageInv s) (hm : s.meanwhile = []) (c : Cause) :
    Inv (s.raise c) where
  status := rfl
  faultCode _ := c.code_bounds
  noFault h := by simp at h
  memory := hs.memory
  canvas := hs.canvas
  idle _ := hm

theorem Inv.issue {s : State} (hs : StorageInv s) (w : Byte) (m : List BusyEvent) :
    Inv (s.issue w m) :=
  .of_clear_report ⟨hs.memory, hs.canvas⟩ (.inr (.inl rfl)) rfl rfl (by simp)

/-- The block's execution of the word in CMD. -/
theorem Inv.runCommand {s t : State} (h : Inv s) (hm : s.meanwhile = [])
    (hr : runCommand s = .next t) : Inv t := by
  rcases runCommand_cases s with ⟨i, -, he⟩ | ⟨r, -, he⟩ <;> rw [he] at hr
  · obtain ⟨u, hu, rfl⟩ | ⟨c, rfl⟩ := exec_cases hr
    · exact .complete (commandWrites_storage h.storage hu) ((exec_meanwhile hr).trans hm)
    · exact .raise h.storage hm c
  · cases hr
    exact .raise h.storage hm _

/-! ### The hardware reset (R280) -/

/-- What a reset makes of the grid: it stays, the writes of a drawing command hold any value, or all
of it does. -/
theorem abandonedPix_cases (P : Params) (s : State) :
    abandonedPix P s = s.pix ∨
    (∃ ms, abandonedPix P s = abandonWrites s (drawnWrites P s ms)) ∨
    abandonedPix P s = Grid.provided s.free := by
  unfold abandonedPix
  cases decode s.cmd with
  | error r => exact .inl rfl
  | ok i =>
    cases i with
    | nop | sel t | enc | fin | ecc | dec | sym t | rst => exact .inl rfl
    | drf | dra | drt => exact .inr (.inl ⟨_, rfl⟩)
    | asm =>
      cases assembledWrites P s with
      | ok r => exact .inr (.inr rfl)
      | error c => exact .inl rfl

theorem abandonWrites_wf {P : Params} {s : State} {ms : Nat → List DrawnModule}
    (hs : cellsWf (2 ^ 64) s.pix.cells) :
    cellsWf (2 ^ 64) (abandonWrites s (drawnWrites P s ms)).cells := by
  cases hw : drawnWrites P s ms with
  | error c => exact hs
  | ok ws =>
    refine Grid.perform_wf hs fun p hp => ?_
    obtain ⟨q, hq, rfl⟩ := List.mem_map.1 hp
    exact drawnWrites_ok_coords hw q hq

theorem abandonedPix_wf {P : Params} {s : State} (hs : cellsWf (2 ^ 64) s.pix.cells) :
    cellsWf (2 ^ 64) (abandonedPix P s).cells := by
  rcases abandonedPix_cases P s with he | ⟨ms, he⟩ | he <;> rw [he]
  · exact hs
  · exact abandonWrites_wf hs
  · exact Grid.provided_wf _

theorem Inv.hardReset {s : State} (hs : StorageInv s) : Inv s.hardReset := by
  have hpix : cellsWf (2 ^ 64) s.hardReset.pix.cells := by
    unfold State.hardReset
    cases s.busy with
    | true => exact abandonedPix_wf hs.pix
    | false => exact hs.pix
  exact .of_clear_report ⟨Memory.wf_pix (State.forgetBuffers_wf hs.memory) hpix, canvasLegal_zero⟩
    (.inl rfl) rfl rfl fun _ => rfl

/-! ### The host -/

/-- A host write of a register other than CMD leaves the report, the buffers, the grid and the canvas
registers as they are (R21, R22). -/
theorem State.writeReg_frame {n : Nat} (hn : n ≠ 0) (v : Nat) (s : State) :
    s.writeReg n v = { s with
      len := (s.writeReg n v).len, bslen := (s.writeReg n v).bslen
      target := (s.writeReg n v).target, version := (s.writeReg n v).version
      scale := (s.writeReg n v).scale, border := (s.writeReg n v).border
      gridW := (s.writeReg n v).gridW, gridH := (s.writeReg n v).gridH } := by
  unfold State.writeReg
  split
  · exact absurd rfl hn
  all_goals rfl

theorem Inv.writeReg {s : State} (h : Inv s) (n v : Nat) : Inv (s.writeReg n v) := by
  by_cases hn : n = 0
  · subst hn
    exact .issue h.storage _ _
  · rw [State.writeReg_frame hn]
    exact .of_same_report h ⟨h.memory, h.canvas⟩ rfl rfl rfl rfl

theorem Inv.returned {s : State} (h : Inv s) (v : BitVec 32) : Inv (s.returned v) :=
  .of_same_report h ⟨h.memory, h.canvas⟩ rfl rfl rfl rfl

/-- A check that answers a next state has passed. -/
theorem next_of_ite {c : Prop} [Decidable c] {u t : State} {o : Host.Outcome State Fault Refusal}
    (h : (if c then .next u else o) = .next t) (ho : o ≠ .next t) : c ∧ t = u := by
  by_cases hc : c
  · rw [if_pos hc] at h
    cases h
    exact ⟨hc, rfl⟩
  · rw [if_neg hc] at h
    exact absurd h ho

/-- A host access on the idle block. -/
theorem Inv.hostAccess {s t : State} {a : HostAccess} (h : Inv s) (ha : hostAccess a s = .next t) :
    Inv t := by
  obtain ⟨hin, hbs, hout, hpix⟩ := h.memory
  cases a with
  | wrReg n v =>
    obtain ⟨-, rfl⟩ := next_of_ite ha nofun
    exact h.writeReg n v
  | rdReg n => cases ha; exact h.returned _
  | rdIn i | rdBs i | rdOut i | getPix x y =>
    obtain ⟨-, rfl⟩ := next_of_ite ha nofun
    exact h.returned _
  | wrIn i c =>
    obtain ⟨hi, rfl⟩ := next_of_ite ha nofun
    exact .of_same_report h ⟨⟨Buf.write_wf hin hi c, hbs, hout, hpix⟩, h.canvas⟩ rfl rfl rfl rfl
  | wrBs i b =>
    obtain ⟨hi, rfl⟩ := next_of_ite ha nofun
    exact .of_same_report h ⟨⟨hin, Buf.write_wf hbs hi b, hout, hpix⟩, h.canvas⟩ rfl rfl rfl rfl
  | wrOut i c =>
    obtain ⟨-, rfl⟩ := next_of_ite ha nofun
    exact h
  | setPix x y b =>
    obtain ⟨⟨hx, hy⟩, rfl⟩ := next_of_ite ha nofun
    have hset := Grid.set_wf hpix (hx.trans s.gridW.isLt) (hy.trans s.gridH.isLt) b
    exact .of_same_report h ⟨Memory.wf_pix h.memory hset, h.canvas⟩ rfl rfl rfl rfl
  | newGrid =>
    cases ha
    exact .of_same_report h ⟨⟨hin, hbs, hout, Grid.provided_wf _⟩, h.canvas⟩ rfl rfl rfl rfl

theorem Inv.hostEvent {s t : State} {e : HostEvent} (h : Inv s) (he : hostEvent e s = .next t) :
    Inv t := by
  cases e with
  | access a => exact h.hostAccess he
  | issue w m => cases he; exact .issue h.storage w m
  | hardReset => cases he; exact .hardReset h.storage

/-- An event while a command runs leaves the block busy, or resets it. -/
theorem Inv.busyEvent {s t : State} {e : BusyEvent} (h : Inv s) (he : busyEvent e s = .next t) :
    Inv t := by
  cases e with
  | access a =>
    obtain ⟨-, rfl⟩ := next_of_ite he nofun
    exact h.returned _
  | hardReset => cases he; exact .hardReset h.storage

/-- What the host does later is no part of the invariant. -/
theorem Inv.setHost {s : State} (h : Inv s) (l : List HostEvent) : Inv { s with host := l } :=
  .of_same_report h ⟨h.memory, h.canvas⟩ rfl rfl rfl rfl

/-- Nor is what happens during a command, while one runs. -/
theorem Inv.setMeanwhile {s : State} (h : Inv s) (hb : s.busy = true) (l : List BusyEvent) :
    Inv { s with meanwhile := l } where
  status := h.status
  faultCode := h.faultCode
  noFault := h.noFault
  memory := h.memory
  canvas := h.canvas
  idle hidle := absurd (hb.symm.trans hidle) nofun

/-! ### The obligations -/

/-- Settles O54: the report is clear, nothing is stored, nothing is pending. -/
theorem resetMeetsTheInvariant : Obligations.ResetMeetsTheInvariant :=
  .of_clear_report ⟨Memory.reset_wf, canvasLegal_zero⟩ (.inl rfl) rfl rfl fun _ => rfl

/-- Settles O55, by the four things a step can be. -/
theorem stepKeepsTheInvariant : Obligations.StepKeepsTheInvariant := by
  intro s t h hstep
  rcases step_cases s with ⟨-, hm, he⟩ | ⟨e, rest, hb, -, he⟩ | ⟨-, -, he⟩ | ⟨e, rest, -, -, he⟩ <;>
    rw [he] at hstep
  · exact h.runCommand hm hstep
  · exact (h.setMeanwhile hb rest).busyEvent hstep
  · cases hstep
    exact h
  · exact (h.setHost rest).hostEvent hstep

end Sys2Proof.Machine
end

section
/-! The command word (30_encoding.md R91 to R97): the decoder read field by field, its inverse the
encoder, and the words it rejects. -/

namespace Sys2Proof

/-! ### The fields of a word (R91) -/

/-- The fields `rsv`, `tier` and `op`, concatenated, are the word (R91). -/
theorem append_wordFields (w : Byte) :
    w.extractLsb' 6 2 ++ w.extractLsb' 4 2 ++ w.extractLsb' 0 4 = w := by
  revert w; decide

@[simp] theorem fieldOfTier_tierOfField (f : BitVec 2) : fieldOfTier (tierOfField f) = f := by
  revert f; decide

theorem untieredOp_some {op : BitVec 4} {i : Instr} (h : untieredOp op.toNat = some i) :
    i.tier? = none ∧ opOf i = op := by
  unfold untieredOp at h
  split at h <;> rename_i hop <;> cases h <;> exact ⟨rfl, BitVec.eq_of_toNat_eq hop.symm⟩

theorem untieredOp_none_iff (op : BitVec 4) :
    untieredOp op.toNat = none ↔
      op ∈ [(0x1 : BitVec 4), 0x6] ∨ op ∈ [(0xB : BitVec 4), 0xC, 0xD, 0xE] := by
  revert op; decide

/-! ### Decoding -/

/-- The six ends of R96's decode function, with the fields that lead to each. -/
theorem decode_cases (w : Byte) :
    (w.extractLsb' 6 2 ≠ 0 ∧ decode w = .error .reservedBits) ∨
    (w.extractLsb' 6 2 = 0 ∧
      ((w.extractLsb' 0 4 = 0x1 ∧ decode w = .ok (.sel (tierOfField (w.extractLsb' 4 2)))) ∨
      (w.extractLsb' 0 4 = 0x6 ∧ decode w = .ok (.sym (tierOfField (w.extractLsb' 4 2)))) ∨
      (w.extractLsb' 0 4 ∉ [(0x1 : BitVec 4), 0x6] ∧
        ((w.extractLsb' 4 2 ≠ 0 ∧ decode w = .error .tierNotTaken) ∨
        (w.extractLsb' 4 2 = 0 ∧
          ((∃ i, untieredOp (w.extractLsb' 0 4).toNat = some i ∧ decode w = .ok i) ∨
          (untieredOp (w.extractLsb' 0 4).toNat = none ∧
            decode w = .error .reservedOpcode))))))) := by
  have hop {n : BitVec 4} : (w.extractLsb' 0 4).toNat = n.toNat ↔ w.extractLsb' 0 4 = n :=
    BitVec.toNat_inj
  generalize hd : decode w = d
  simp only [decode] at hd
  split_ifs at hd with hrsv hsel hsym htier
  · exact .inl ⟨hrsv, hd.symm⟩
  · exact .inr ⟨not_not.1 hrsv, .inl ⟨hop.1 hsel, hd.symm⟩⟩
  · exact .inr ⟨not_not.1 hrsv, .inr (.inl ⟨hop.1 hsym, hd.symm⟩)⟩
  all_goals
    refine .inr ⟨not_not.1 hrsv, .inr (.inr ⟨?_, ?_⟩)⟩
    · simpa [← hop] using ⟨hsel, hsym⟩
  · exact .inl ⟨htier, hd.symm⟩
  · refine .inr ⟨not_not.1 htier, ?_⟩
    cases hi : untieredOp (w.extractLsb' 0 4).toNat with
    | some i => rw [hi] at hd; exact .inl ⟨i, rfl, hd.symm⟩
    | none => rw [hi] at hd; exact .inr ⟨rfl, hd.symm⟩

/-- A word that decodes has the fields its command is encoded with. -/
theorem decode_ok_fields {w : Byte} {i : Instr} (h : decode w = .ok i) :
    w.extractLsb' 6 2 = 0 ∧ w.extractLsb' 4 2 = (i.tier?.map fieldOfTier).getD 0 ∧
      w.extractLsb' 0 4 = opOf i := by
  rcases decode_cases w with ⟨-, he⟩ | ⟨hrsv, ⟨hop, he⟩ | ⟨hop, he⟩ | ⟨-, ⟨-, he⟩ |
    ⟨htier, ⟨j, hj, he⟩ | ⟨-, he⟩⟩⟩⟩ <;> cases he.symm.trans h
  · exact ⟨hrsv, by simp [Instr.tier?], hop⟩
  · exact ⟨hrsv, by simp [Instr.tier?], hop⟩
  · obtain ⟨hnone, hop⟩ := untieredOp_some hj
    exact ⟨hrsv, by simpa [hnone] using htier, hop.symm⟩

/-- The three reasons of R95. -/
theorem decode_error_iff {w : Byte} : (∃ r, decode w = .error r) ↔
    w.extractLsb' 6 2 ≠ 0 ∨ w.extractLsb' 0 4 ∈ [(0xB : BitVec 4), 0xC, 0xD, 0xE] ∨
      (w.extractLsb' 4 2 ≠ 0 ∧ w.extractLsb' 0 4 ∉ [(0x1 : BitVec 4), 0x6]) := by
  have hnone := untieredOp_none_iff (w.extractLsb' 0 4)
  rcases decode_cases w with ⟨hrsv, he⟩ | ⟨hrsv, ⟨hop, he⟩ | ⟨hop, he⟩ | ⟨hop, ⟨htier, he⟩ |
    ⟨htier, ⟨j, hj, he⟩ | ⟨hj, he⟩⟩⟩⟩
  · exact iff_of_true ⟨_, he⟩ (.inl hrsv)
  · simp [he, hrsv, hop]
  · simp [he, hrsv, hop]
  · exact iff_of_true ⟨_, he⟩ (.inr (.inr ⟨htier, hop⟩))
  · refine iff_of_false (by simp [he]) ?_
    rintro (h | h | ⟨h, -⟩)
    · exact h hrsv
    · cases hj.symm.trans (hnone.2 (.inr h))
    · exact h htier
  · exact iff_of_true ⟨_, he⟩ (.inr (.inl ((hnone.1 hj).resolve_left hop)))

/-! ### Encoding -/

/-- The 18 commands, in the order of the words of R96. -/
def Instr.all : List Instr :=
  [.nop, .sel .L, .sel .M, .sel .Q, .sel .H, .enc, .fin, .ecc, .dec, .sym .L, .sym .M, .sym .Q,
    .sym .H, .drf, .dra, .drt, .asm, .rst]

theorem Instr.mem_all (i : Instr) : i ∈ Instr.all := by
  cases i with
  | sel t | sym t => cases t <;> decide
  | nop | enc | fin | ecc | dec | drf | dra | drt | asm | rst => decide

theorem Instr.wf_eq_true (i : Instr) : i.wf = true := by
  unfold Instr.wf
  split
  · simp [Tier.mem_all]
  · rfl

theorem legalWords_eq_map_encode : legalWords = Instr.all.map encode := by decide

theorem decode_encode (i : Instr) : decode (encode i) = .ok i := by
  cases i with
  | sel t | sym t => cases t <;> decide
  | nop | enc | fin | ecc | dec | drf | dra | drt | asm | rst => decide

theorem encode_of_decode {w : Byte} {i : Instr} (h : decode w = .ok i) : encode i = w := by
  obtain ⟨hrsv, htier, hop⟩ := decode_ok_fields h
  calc encode i = w.extractLsb' 6 2 ++ w.extractLsb' 4 2 ++ w.extractLsb' 0 4 := by
        rw [hrsv, htier, hop, encode]
    _ = w := append_wordFields w

/-- The legal words are the words of the commands, so they are the words that decode. -/
theorem not_mem_legalWords_iff {w : Byte} : w ∉ legalWords ↔ ∃ r, decode w = .error r := by
  have hmem : w ∈ legalWords ↔ ∃ i, decode w = .ok i := by
    simp only [legalWords_eq_map_encode, List.mem_map, Instr.mem_all, true_and]
    exact exists_congr fun i => ⟨fun h => h ▸ decode_encode i, encode_of_decode⟩
  rw [hmem]
  cases decode w <;> simp

end Sys2Proof

namespace Sys2Proof.Machine

theorem step_busy_nil {s : State} (hb : s.busy = true) (hm : s.meanwhile = []) :
    step s = runCommand s := by
  rw [step_busy hb, busyStep, hm]

theorem runCommand_illegal {s : State} (h : s.cmd ∉ legalWords) :
    runCommand s = .next (s.endsInFault 6 s.cmd.toNat) := by
  obtain ⟨r, hr⟩ := not_mem_legalWords_iff.1 h
  rw [runCommand, hr]
  rfl

/-- Settles O1: the listed words by evaluation; a word that decodes is the word of its command. -/
theorem decodeReadsTheOpcodeMap : Obligations.DecodeReadsTheOpcodeMap :=
  ⟨rfl, rfl, rfl, rfl, rfl, rfl, rfl, rfl, rfl, rfl, rfl, rfl, rfl, rfl, rfl, rfl, rfl, rfl,
    fun _ => not_mem_legalWords_iff.1⟩

/-- Settles O2, by the fields of a word that decodes. -/
theorem decodeAndEncodeAgree : Obligations.DecodeAndEncodeAgree :=
  ⟨fun i => ⟨i.wf_eq_true, decode_encode i⟩, fun _ _ => encode_of_decode⟩

/-- Settles O5: the illegal words are those `decode` rejects. -/
theorem illegalWordRaisesIllegalCommand : Obligations.IllegalWordRaisesIllegalCommand :=
  ⟨fun _ => not_mem_legalWords_iff.trans decode_error_iff,
    fun _ hb hm hw => (step_busy_nil hb hm).trans (runCommand_illegal hw)⟩

end Sys2Proof.Machine
end

section
/-! The frame of the commands that write BS (20_memory.md R69, 42_bitstream_finisher.md R148,
43_error_correction_encoder.md R161): FIN and ECC write a stream that begins with the old one. -/

namespace Sys2Proof.Machine

theorem prefix_alignLoop (fuel : Nat) (w : Bits) : w <+: alignLoop fuel w := by
  induction fuel generalizing w with
  | zero => exact List.prefix_rfl
  | succ fuel ih =>
    rw [alignLoop]
    split
    · exact (List.prefix_append w [false]).trans (ih _)
    · exact List.prefix_rfl

theorem prefix_fillLoop (T fuel k : Nat) (w : Bits) : w <+: fillLoop T fuel k w := by
  induction fuel generalizing k w with
  | zero => exact List.prefix_rfl
  | succ fuel ih =>
    rw [fillLoop]
    split
    · exact (List.prefix_append w _).trans (ih _ _)
    · exact List.prefix_rfl

theorem prefix_finishBits (T : Nat) (w : Bits) : w <+: finishBits T w :=
  (List.prefix_append w _).trans ((prefix_alignLoop 7 _).trans (prefix_fillLoop T _ 0 _))

theorem prefix_of_finishStream {P : Params} {T : Nat} {w f : Bits}
    (h : finishStream P T w = .ok f) : w <+: f := by
  rcases finishStream_cases P T w with ⟨-, he⟩ | ⟨-, he⟩ <;> rw [he] at h <;> cases h
  exact prefix_finishBits T w

theorem prefix_of_protectStream {P : Params} {w e : Bits} (h : protectStream P w = .ok e) :
    w <+: e := by
  rcases protectStream_cases P w with ⟨-, he⟩ | ⟨-, he⟩ <;> rw [he] at h <;> cases h
  exact List.prefix_append w _

/-- An extended stream changes no bit of the old stream and none beyond its own end. -/
theorem State.readBs_writeStream_frame {s : State} {w : Bits} (hw : s.stream <+: w)
    (hlen : w.length < 65536) {j : Nat}
    (hj : j < s.bslen.toNat ∨ (s.writeStream w).bslen.toNat ≤ j) :
    (s.writeStream w).readBs j = s.readBs j := by
  rw [State.readBs_writeStream]
  rcases hj with hj | hj
  · have hold : s.stream[j]? = some (s.readBs j) := by rw [State.stream_getElem?, if_pos hj]
    obtain ⟨v, rfl⟩ := hw
    rw [List.getElem?_append_left (by simpa using hj), hold, Option.getD_some]
  · rw [State.writeStream_bslen, BitVec.toNat_ofNat, Nat.mod_eq_of_lt hlen] at hj
    rw [List.getElem?_eq_none hj, Option.getD_none]

/-- FIN and ECC, when they complete, write a stream that begins with the old one and fits BSLEN. -/
theorem commandWrites_extends {i : Instr} (hi : i = .fin ∨ i = .ecc) {s u : State}
    (h : commandWrites Config.params s i = .ok u) :
    ∃ w, s.stream <+: w ∧ w.length < 65536 ∧ u = s.writeStream w := by
  have hbs := Config.bsMax_bounds.2
  rcases hi with rfl | rfl
  · obtain ⟨-, -, w, hw, rfl⟩ := finCmd_inv h
    have hlen := finishStream_ok_length hw
    exact ⟨w, prefix_of_finishStream hw, by omega, rfl⟩
  · obtain ⟨-, -, w, hw, rfl⟩ := eccCmd_inv h
    have hlen := protectStream_ok_length Config.params_valid hw
    exact ⟨w, prefix_of_protectStream hw, by omega, rfl⟩

theorem exec_extends_frame {i : Instr} (hi : i = .fin ∨ i = .ecc) {s t : State} {j : Nat}
    (h : exec i s = .next t) :
    (j < s.bslen.toNat ∨ t.bslen.toNat ≤ j → t.readBs j = s.readBs j) ∧ t.free = s.free := by
  obtain ⟨u, hu, rfl⟩ | ⟨c, rfl⟩ := exec_cases h
  · obtain ⟨w, hpre, hlen, rfl⟩ := commandWrites_extends hi hu
    exact ⟨State.readBs_writeStream_frame hpre hlen, rfl⟩
  · exact ⟨fun _ => rfl, rfl⟩

/-- Settles O51: a fault writes the report alone; FIN and ECC extend the stream, ENC and SYM replace
it. -/
theorem streamCommandsFrame : Obligations.StreamCommandsFrame := by
  refine fun s t j => ⟨?_, fun h => ?_, fun r h => ?_⟩
  · rintro (h | h)
    · exact exec_extends_frame (.inl rfl) h
    · exact exec_extends_frame (.inr rfl) h
  · obtain ⟨u, hu, rfl⟩ | ⟨c, rfl⟩ := exec_cases h
    · obtain ⟨w, -, rfl⟩ := encCmd_inv hu
      rfl
    · rfl
  · obtain ⟨u, hu, rfl⟩ | ⟨c, rfl⟩ := exec_cases h
    · obtain ⟨w, v, e, -, -, rfl⟩ := symCmd_inv hu
      rfl
    · rfl

end Sys2Proof.Machine
end

section
/-! The VersionSelector (40_version_selector.md R121 to R123): the version SEL chooses is the least
that holds the stream, and every law of the selector follows from that. -/

namespace Sys2Proof.Machine

/-! ### The choice -/

/-- The scan is ascending, so what it passed over was too small. -/
theorem choose_least {P : Params} {t : Tier} {n v u : Nat} (h : choose P t n = some v)
    (hu : u ∈ versions) (huv : u < v) : P.capOf u t < n := by
  obtain ⟨-, i, hi, hv, hbefore⟩ := List.find?_eq_some_iff_getElem.1 h
  have hget {j : Nat} (hj : j < versions.length) : versions[j] = j + 1 := by
    revert j; decide
  have hu1 := (mem_versions.1 hu).1
  have hmiss := hbefore (u - 1) (by rw [hget] at hv; omega)
  rw [hget, Nat.sub_add_cancel hu1] at hmiss
  simpa using hmiss

theorem choose_eq_some_iff {P : Params} {t : Tier} {n v : Nat} :
    choose P t n = some v ↔
      v ∈ versions ∧ n ≤ P.capOf v t ∧ ∀ u ∈ versions, u < v → P.capOf u t < n := by
  constructor
  · intro h
    obtain ⟨hv, hfit⟩ := choose_some h
    exact ⟨hv, hfit, fun u hu huv => choose_least h hu huv⟩
  · rintro ⟨hv, hfit, hleast⟩
    cases hc : choose P t n with
    | none => exact absurd hfit (Nat.not_le.2 (choose_none.1 hc v hv))
    | some w =>
      obtain ⟨hw, hwfit⟩ := choose_some hc
      rcases Nat.lt_trichotomy w v with hlt | rfl | hgt
      · exact absurd hwfit (Nat.not_le.2 (hleast w hw hlt))
      · rfl
      · exact absurd hfit (Nat.not_le.2 (choose_least hc hv hgt))

/-- The capacities rise with the version, so a length past the last one fits none. -/
theorem choose_eq_none_iff {P : Params} (hP : P.valid = true) {t : Tier} {n : Nat} :
    choose P t n = none ↔ P.capOf 8 t < n := by
  refine choose_none.trans ⟨fun h => h 8 (by decide), fun h v hv => ?_⟩
  obtain ⟨hv1, hv8⟩ := mem_versions.1 hv
  exact Nat.lt_of_le_of_lt (Params.capOf_le_of_le hP hv1 hv8 (Nat.le_refl 8) t) h

/-- A length equal to a capacity chooses that version: every lower capacity is smaller (R42 (a)). -/
theorem choose_capOf {P : Params} (hP : P.valid = true) {v : Nat} (hv : v ∈ versions) (t : Tier) :
    choose P t (P.capOf v t) = some v :=
  choose_eq_some_iff.2 ⟨hv, Nat.le_refl _, fun _ hu huv =>
    Params.capOf_lt hP (mem_versions.1 hu).1 huv (mem_versions.1 hv).2 t⟩

theorem choose_mono {P : Params} {t : Tier} {m n v w : Nat} (hmn : m ≤ n)
    (hv : choose P t m = some v) (hw : choose P t n = some w) : v ≤ w := by
  obtain ⟨hmem, hfit⟩ := choose_some hw
  by_contra hlt
  have := choose_least hv hmem (Nat.lt_of_not_le hlt)
  omega

/-! ### SEL -/

theorem exec_sel_of_choose {r : Tier} {s : State} {v : Nat}
    (h : choose Config.params r s.bslen.toNat = some v) :
    exec (.sel r) s = .next (s.setVersion Config.params r v).complete := by
  rw [exec_eq_conclude, commandWrites, selCmd, selectVersion, h, conclude_ok]

theorem exec_sel_overflow {r : Tier} {s : State}
    (h : Config.params.capOf 8 r < s.bslen.toNat) :
    exec (.sel r) s = .next (s.raise (.capacityExceeded s.bslen.toNat)) := by
  rw [exec_eq_conclude, commandWrites, selCmd, selectVersion,
    (choose_eq_none_iff Config.params_valid).2 h, conclude_error]

/-- A command that ends with the STATUS of R256 completed its writes. -/
theorem exec_done {i : Instr} {s u : State} (h : exec i s = .next u) (hdone : u.status = 0b010) :
    ∃ t, commandWrites Config.params s i = .ok t ∧ u = t.complete := by
  rcases exec_cases h with hok | ⟨c, rfl⟩
  · exact hok
  · exact absurd hdone (by rw [State.raise_status]; decide)

theorem exec_sel_done {r : Tier} {s t : State} (h : exec (.sel r) s = .next t)
    (hdone : t.status = 0b010) :
    ∃ v, choose Config.params r s.bslen.toNat = some v ∧
      t = (s.setVersion Config.params r v).complete := by
  obtain ⟨u, hu, rfl⟩ := exec_done h hdone
  obtain ⟨v, hv, rfl⟩ := selCmd_inv hu
  exact ⟨v, hv, rfl⟩

/-! ### The registers SEL writes hold its values -/

theorem State.setVersion_version_toNat (P : Params) (t : Tier) (s : State) {v : Nat}
    (hv : v ∈ versions) : (s.setVersion P t v).version.toNat = v := by
  have := mem_versions.1 hv
  rw [State.setVersion_version, BitVec.toNat_ofNat]
  omega

theorem State.setVersion_target_toNat (t : Tier) (s : State) {v : Nat} (hv : v ∈ versions) :
    (s.setVersion Config.params t v).target.toNat = Config.params.capOf v t := by
  have := Config.capOf_le hv t
  rw [State.setVersion_target, BitVec.toNat_ofNat]
  omega

/-! ### FIN on a stream that the target holds -/

theorem finCmd_error_of_le_target {P : Params} {s : State} {c : Cause}
    (hle : s.bslen.toNat ≤ s.target.toNat) (h : finCmd P s = .error c) :
    ∃ n, c = .bufferOverflow n := by
  unfold finCmd at h
  split_ifs at h with hmax htarget
  · cases h
    exact ⟨_, rfl⟩
  · omega
  · rcases finishStream_cases P s.target.toNat s.stream with ⟨-, he⟩ | ⟨-, he⟩ <;> rw [he] at h <;>
      cases h
    exact ⟨_, rfl⟩

theorem exec_fin_errcode_ne {s u : State} (hle : s.bslen.toNat ≤ s.target.toNat)
    (h : exec .fin s = .next u) : u.errcode ≠ 10 := by
  rw [exec_eq_conclude] at h
  rcases conclude_cases h with ⟨t, -, rfl⟩ | ⟨c, hc, rfl⟩
  · rw [State.complete_errcode]
    decide
  · obtain ⟨n, rfl⟩ := finCmd_error_of_le_target hle hc
    rw [State.raise_errcode, Cause.code]
    decide

/-! ### The obligations -/

/-- Settles O13: the least version that fits is chosen, and past the last capacity none. -/
theorem selSelectsLeastVersion : Obligations.SelSelectsLeastVersion :=
  fun _ _ => ⟨fun _ hv hfit hleast => exec_sel_of_choose (choose_eq_some_iff.2 ⟨hv, hfit, hleast⟩),
    exec_sel_overflow⟩

/-- Settles O14, each law from what the choice is. -/
theorem selectorLaws : Obligations.SelectorLaws := by
  refine ⟨fun r s v hv hb => ?boundary, fun s hb => ?overflow, fun r s t h hd => ?least,
    fun r s s' t t' hle h hd h' hd' => ?monotone, fun r s t u h hd => ?target⟩
  case boundary =>
    have hc : choose Config.params r s.bslen.toNat = some v :=
      hb ▸ choose_capOf Config.params_valid hv r
    exact ⟨_, exec_sel_of_choose hc, rfl, State.setVersion_version_toNat Config.params r s hv⟩
  case overflow =>
    exact exec_sel_overflow (by rw [Config.capOf_eight_H]; omega)
  case least =>
    obtain ⟨v, hv, rfl⟩ := exec_sel_done h hd
    rw [State.complete_version, State.setVersion_version_toNat _ r s (choose_some hv).1]
    exact choose_eq_some_iff.1 hv
  case monotone =>
    obtain ⟨v, hv, rfl⟩ := exec_sel_done h hd
    obtain ⟨w, hw, rfl⟩ := exec_sel_done h' hd'
    rw [State.complete_version, State.complete_version,
      State.setVersion_version_toNat _ r s (choose_some hv).1,
      State.setVersion_version_toNat _ r s' (choose_some hw).1]
    exact choose_mono hle hv hw
  case target =>
    obtain ⟨v, hv, rfl⟩ := exec_sel_done h hd
    obtain ⟨hmem, hfit⟩ := choose_some hv
    have hle : s.bslen.toNat ≤ (s.setVersion Config.params r v).complete.target.toNat := by
      rwa [State.complete_target, State.setVersion_target_toNat r s hmem]
    exact ⟨hle, exec_fin_errcode_ne hle⟩

end Sys2Proof.Machine
end

section
/-! The ByteModeEncoder (41_byte_mode_encoder.md R130 to R135). Where the fields of a byte-mode stream
stand is said once, for any stream that begins with one: the bits ENC writes are those fields, and DEC
reads them back. -/

namespace Sys2Proof.Machine

/-! ### The input -/

/-- `IN[0 : LEN]` as the bytes of the payload (R132). -/
def State.inputBytes (s : State) : List Byte := s.inputString.map fun c => c.setWidth 8

@[simp] theorem State.inputBytes_length (s : State) : s.inputBytes.length = s.len.toNat := by
  rw [State.inputBytes, List.length_map, State.inputString_length]

theorem State.inputBytes_getElem? {s : State} {i : Nat} (hi : i < s.len.toNat) :
    s.inputBytes[i]? = some (BitVec.ofNat 8 (s.readIn i).toNat) := by
  rw [State.inputBytes, List.getElem?_map, State.inputString_getElem?, if_pos hi, Option.map_some,
    BitVec.ofNat_toNat]

/-- The scan finds the lowest code point above 255 (R134). -/
theorem firstUnsupported_inputString {s : State} {i : Nat} (hi : i < s.len.toNat)
    (hbig : 255 < (s.readIn i).toNat) (hleast : ∀ j < i, (s.readIn j).toNat ≤ 255) :
    firstUnsupported s.inputString = some i := by
  have hget {j : Nat} (hj : j < s.inputString.length) : s.inputString[j] = s.readIn j := by
    simp [State.inputString]
  refine List.findIdx?_eq_some_iff_getElem.2
    ⟨by rwa [State.inputString_length], by simpa [hget] using hbig, fun j hj => ?_⟩
  simpa [hget] using hleast j hj

/-! ### The faults of ENC and SYM -/

/-- ENC and SYM begin with the same checks, so they report the same fault (R133, R134, R221). -/
theorem exec_of_encodeInput_error {s : State} {c : Cause}
    (h : encodeInput Config.params s = .error c) :
    exec .enc s = .next (s.raise c) ∧ ∀ r, exec (.sym r) s = .next (s.raise c) := by
  refine ⟨?_, fun r => ?_⟩
  · rw [exec_eq_conclude, commandWrites, encCmd, h, conclude_error]
  · rw [exec_eq_conclude, commandWrites, symCmd, h, conclude_error]

theorem encCmd_error {P : Params} {s : State} {c : Cause} (h : encCmd P s = .error c) :
    encodeInput P s = .error c := by
  unfold encCmd at h
  cases he : encodeInput P s with
  | ok w => rw [he] at h; cases h
  | error d => rw [he] at h; cases h; rfl

theorem symCmd_error {P : Params} {t : Tier} {s : State} {c : Cause}
    (h : symCmd P t s = .error c) :
    encodeInput P s = .error c ∨
      ∃ w, encodeInput P s = .ok w ∧ symbolData P t w = .error c := by
  unfold symCmd at h
  cases hw : encodeInput P s with
  | error d => simp only [hw] at h; cases h; exact .inl rfl
  | ok w =>
    cases hd : symbolData P t w with
    | error d => simp only [hw, hd] at h; cases h; exact .inr ⟨w, rfl, hd⟩
    | ok r => simp only [hw, hd] at h; cases h

/-- Past its encoding SYM can only fail as SEL, FIN or ECC do (R221). -/
theorem symbolData_error {P : Params} {t : Tier} {w : Bits} {c : Cause}
    (h : symbolData P t w = .error c) :
    (∃ n, c = .capacityExceeded n) ∨ (∃ n, c = .bufferOverflow n) ∨ ∃ n, c = .blockTooLong n := by
  unfold symbolData at h
  rcases selectVersion_cases P t w.length with ⟨v, -, hv⟩ | ⟨-, hv⟩ <;> simp only [hv] at h
  · rcases finishStream_cases P (P.capOf v t) w with ⟨-, hf⟩ | ⟨-, hf⟩ <;> simp only [hf] at h
    · cases h
      exact .inr (.inl ⟨_, rfl⟩)
    · rcases protectStream_cases P (finishBits (P.capOf v t) w) with ⟨-, hp⟩ | ⟨-, hp⟩ <;>
        simp only [hp] at h <;> cases h
      exact .inr (.inr ⟨_, rfl⟩)
  · cases h
    exact .inl ⟨_, rfl⟩

theorem encodeInput_error_code_ne_two {P : Params} {s : State} {c : Cause} (hl : s.len.toNat ≤ 255)
    (h : encodeInput P s = .error c) : c.code ≠ 2 := by
  rcases encodeInput_cases P s with ⟨hlong, -⟩ | ⟨i, -, -, he⟩ | ⟨-, -, he⟩
  · omega
  · rw [he] at h; cases h; simp [Cause.code]
  · rw [he] at h; cases h

theorem symCmd_error_code_ne_two {P : Params} {t : Tier} {s : State} {c : Cause}
    (hl : s.len.toNat ≤ 255) (h : symCmd P t s = .error c) : c.code ≠ 2 := by
  rcases symCmd_error h with he | ⟨w, -, hd⟩
  · exact encodeInput_error_code_ne_two hl he
  · rcases symbolData_error hd with ⟨n, rfl⟩ | ⟨n, rfl⟩ | ⟨n, rfl⟩ <;> simp [Cause.code]

/-- A command reports no code but those of its faults. -/
theorem exec_errcode_ne {i : Instr} {s t : State} {k : BitVec 8} (hk : k ≠ 0)
    (hne : ∀ c, commandWrites Config.params s i = .error c → c.code ≠ k)
    (h : exec i s = .next t) : t.errcode ≠ k := by
  rw [exec_eq_conclude] at h
  rcases conclude_cases h with ⟨u, -, rfl⟩ | ⟨c, hc, rfl⟩
  · rw [State.complete_errcode]
    exact hk.symm
  · rw [State.raise_errcode]
    exact hne c hc

/-! ### Fields of a stream -/

theorem State.slice_of_prefix {s : State} {u w : Bits} (h : u ++ w <+: s.stream) :
    s.slice u.length w.length = w := by
  obtain ⟨v, hv⟩ := h
  apply List.ext_getElem?
  intro j
  rw [State.slice_getElem?]
  split
  · next hj =>
    have hlen : u.length + w.length ≤ s.bslen.toNat := by
      rw [← State.stream_length, ← hv]
      simp
    have hbit : s.stream[u.length + j]? = w[j]? := by
      rw [← hv, List.append_assoc, List.getElem?_append_right (by omega), Nat.add_sub_cancel_left,
        List.getElem?_append_left hj]
    rw [← hbit, State.stream_getElem?, if_pos (by omega)]
  · next hj => rw [List.getElem?_eq_none (by omega)]

theorem State.readBs_of_slice_bin8 {s : State} {i j : Nat} {v : Byte} (h : s.slice i 8 = bin8 v)
    (hj : j < 8) : s.readBs (i + j) = v.getMsbD j := by
  have hbit := congrArg (·[j]?) h
  simpa only [State.slice_getElem?, if_pos hj, bin8_getElem? v hj, Option.some.injEq] using hbit

theorem State.readBs_of_slice_bits4 {s : State} {j : Nat} {m : BitVec 4}
    (h : s.slice 0 4 = bits4 m) (hj : j < 4) : s.readBs j = m.getMsbD j := by
  have hbit := congrArg (·[j]?) h
  simpa only [State.slice_getElem?, if_pos hj, bits4_getElem? m hj, Option.some.injEq,
    Nat.zero_add] using hbit

/-! ### The layout of a byte-mode stream (R132) -/

section Layout

variable {s : State} {m : BitVec 4} {l : List Byte}

theorem slice_modeIndicator (h : byteModeStream m l <+: s.stream) : s.slice 0 4 = bits4 m := by
  rw [byteModeStream, List.append_assoc] at h
  exact State.slice_of_prefix (u := []) ((List.prefix_append (bits4 m) _).trans h)

theorem slice_countIndicator (h : byteModeStream m l <+: s.stream) :
    s.slice 4 8 = bin8 (BitVec.ofNat 8 l.length) :=
  State.slice_of_prefix (u := bits4 m) ((List.prefix_append _ (l.flatMap bin8)).trans h)

/-- Character `i` stands behind the two indicators and the `i` characters before it. -/
theorem slice_character (h : byteModeStream m l <+: s.stream) {i : Nat} {b : Byte}
    (hb : l[i]? = some b) : s.slice (12 + 8 * i) 8 = bin8 b := by
  obtain ⟨hi, rfl⟩ := List.getElem?_eq_some_iff.1 hb
  have hsplit : l.flatMap bin8 =
      (l.take i).flatMap bin8 ++ (bin8 l[i] ++ (l.drop (i + 1)).flatMap bin8) := by
    rw [← List.flatMap_cons, ← List.drop_eq_getElem_cons hi, ← List.flatMap_append,
      List.take_append_drop]
  rw [byteModeStream, hsplit, ← List.append_assoc, ← List.append_assoc] at h
  have hlen : (bits4 m ++ bin8 (BitVec.ofNat 8 l.length) ++ (l.take i).flatMap bin8).length =
      12 + 8 * i := by
    simp only [List.length_append, bits4_length, bin8_length, flatMap_bin8_length,
      List.length_take_of_le (Nat.le_of_lt hi)]
  rw [← hlen]
  exact State.slice_of_prefix ((List.prefix_append _ _).trans h)

end Layout

/-! ### DEC on a stream that begins with a byte-mode stream (R172) -/

theorem payload_of_prefix {s : State} {m : BitVec 4} {c : List Byte}
    (h : byteModeStream m c <+: s.stream) : s.payload c.length = c := by
  refine List.ext_getElem (s.payload_length _) fun i hi hic => ?_
  simp only [State.payload, List.getElem_map, List.getElem_range, State.field,
    slice_character h (List.getElem?_eq_getElem hic), val_bin8, BitVec.ofNat_toNat,
    BitVec.setWidth_eq]

/-- DEC reads the string of a byte-mode stream, whatever follows it. -/
theorem decCmd_of_prefix {P : Params} {s : State} {c : List Byte}
    (h : byteModeStream P.modeByte c <+: s.stream) (hc : c.length ≤ 255)
    (hmax : s.bslen.toNat ≤ P.bsMax) : decCmd P s = .ok (s.replaceOut c) := by
  have hmode : s.field 0 4 = P.modeByte.toNat := by
    rw [State.field, slice_modeIndicator h, val_bits4]
  have hcount : s.field 4 8 = c.length := by
    rw [State.field, slice_countIndicator h, val_bin8, BitVec.toNat_ofNat]
    omega
  have hlen : 12 + 8 * c.length ≤ s.bslen.toNat := by
    simpa [byteModeStream_length] using h.length_le
  rw [decCmd, if_neg (by omega), if_neg (by omega), if_neg (not_not.2 hmode), if_neg (by omega),
    hcount, if_neg (by omega), payload_of_prefix h]

/-- DEC gives back the string whose byte-mode stream BS begins with. -/
theorem exec_dec_of_prefix {s : State} {c : List Byte}
    (h : byteModeStream Config.params.modeByte c <+: s.stream) (hc : c.length ≤ 255)
    (hmax : s.bslen.toNat ≤ Config.params.bsMax) :
    exec .dec s = .next (s.replaceOut c).complete := by
  rw [exec_eq_conclude, commandWrites, decCmd_of_prefix h hc hmax, conclude_ok]

/-! ### ENC on an admitted string -/

/-- The byte-mode stream of the input (R132). -/
def State.encoding (s : State) : Bits := byteModeStream Config.params.modeByte s.inputBytes

@[simp] theorem State.encoding_length (s : State) :
    s.encoding.length = 12 + 8 * s.len.toNat := by
  rw [State.encoding, byteModeStream_length, State.inputBytes_length]

theorem State.Admitted.exec_enc {s : State} (h : s.Admitted) :
    exec .enc s = .next (s.replaceStream s.encoding).complete := by
  rw [exec_eq_conclude, commandWrites, encCmd, encodeInput_ok h.1 h.2]
  rfl

theorem State.Admitted.stream_enc {s : State} (h : s.Admitted) :
    (s.replaceStream s.encoding).complete.stream = s.encoding := by
  obtain ⟨hlen, -⟩ := h
  exact State.stream_replaceStream (by rw [State.encoding_length]; omega) s

theorem State.Admitted.prefix_enc {s : State} (h : s.Admitted) :
    s.encoding <+: (s.replaceStream s.encoding).complete.stream := by
  rw [h.stream_enc]

theorem State.Admitted.bslen_enc {s : State} (h : s.Admitted) :
    (s.replaceStream s.encoding).complete.bslen.toNat = 12 + 8 * s.len.toNat := by
  rw [← State.stream_length, h.stream_enc, State.encoding_length]

/-! ### The obligations -/

/-- Settles O15: BS holds the byte-mode stream of the input, whose fields stand where R132 says. -/
theorem encWritesByteModeStream : Obligations.EncWritesByteModeStream := by
  intro s ha
  have hpre := ha.prefix_enc
  refine ⟨_, ha.exec_enc, ?frame, ha.bslen_enc,
    fun j hj => State.readBs_of_slice_bits4 (slice_modeIndicator hpre) hj,
    fun j hj => ?count, fun i hi j hj => ?character⟩
  case frame =>
    rw [← State.encoding_length]
    rfl
  case count =>
    rw [State.readBs_of_slice_bin8 (slice_countIndicator hpre) hj, State.inputBytes_length]
  case character =>
    exact State.readBs_of_slice_bin8 (slice_character hpre (State.inputBytes_getElem? hi)) hj

/-- Settles O18: what ENC leaves in BS is the byte-mode stream DEC reads. -/
theorem decodeUndoesEncode : Obligations.DecodeUndoesEncode := by
  intro s ha
  have hlen := ha.1
  have hbs := Config.bsMax_bounds.1
  have hdec := exec_dec_of_prefix ha.prefix_enc
    (by rwa [State.inputBytes_length]) (by rw [ha.bslen_enc]; omega)
  refine ⟨_, _, ha.exec_enc, hdec, rfl, ?outlen, fun i hi => ?character⟩
  case outlen =>
    rw [State.complete_outlen, State.replaceOut_outlen, State.inputBytes_length,
      BitVec.toNat_ofNat]
    omega
  case character =>
    have hbyte := ha.2 i hi
    have hread := State.readOut_replaceOut s.inputBytes (s.replaceStream s.encoding).complete i
    rw [State.inputBytes_getElem? hi, Option.getD_some] at hread
    calc _ = (BitVec.ofNat 8 (s.readIn i).toNat).toNat := congrArg BitVec.toNat hread
      _ = (s.readIn i).toNat := by rw [BitVec.toNat_ofNat]; omega

/-- Settles O16: the length is checked first, and no later check reports its code. -/
theorem lengthOverflowRaised : Obligations.LengthOverflowRaised := by
  refine ⟨fun s hl => ?_, fun s t hl => ⟨?_, fun r => ?_⟩⟩
  · have he : encodeInput Config.params s = .error (.lengthOverflow s.len.toNat) := if_pos hl
    exact exec_of_encodeInput_error he
  · exact exec_errcode_ne (by decide) fun c hc => encodeInput_error_code_ne_two hl (encCmd_error hc)
  · exact exec_errcode_ne (by decide) fun c hc => symCmd_error_code_ne_two hl hc

/-- Settles O17: with the length in bounds, the scan of the characters answers the lowest index. -/
theorem unsupportedCharacterRaised : Obligations.UnsupportedCharacterRaised := by
  intro s i hl hi hbig hleast
  have he : encodeInput Config.params s = .error (.unsupportedCharacter i) := by
    rw [encodeInput, if_neg (Nat.not_lt.2 hl), firstUnsupported_inputString hi hbig hleast]
  exact exec_of_encodeInput_error he

end Sys2Proof.Machine
end

section
/-! The BitStreamFinisher (42_bitstream_finisher.md R141 to R148). What FIN leaves is said once of
`finishBits`: the old stream, zeros up to `L2`, fill bytes up to `L3`. What FIN answers follows from
its checks, and how far `L3` is from the target from the closed form of R144. -/

namespace Sys2Proof.Machine

/-! ### The zeros: steps 1 and 2 -/

/-- `L2`, the length after the terminator and the byte alignment (R144). -/
def alignedLength (L0 T : Nat) : Nat := ceil8 (L0 + min 4 (T - L0))

theorem finishedLength_eq_max (L0 T : Nat) :
    finishedLength L0 T = max (alignedLength L0 T) (8 * (T / 8)) := rfl

theorem alignLoop_appends_zeros (fuel : Nat) (w : Bits) : ∃ n, alignLoop fuel w = w ++ zeros n := by
  induction fuel generalizing w with
  | zero => exact ⟨0, (List.append_nil w).symm⟩
  | succ fuel ih =>
    rw [alignLoop]
    split
    · obtain ⟨n, hn⟩ := ih (w ++ [false])
      exact ⟨n + 1, by rw [hn, List.append_assoc]; rfl⟩
    · exact ⟨0, (List.append_nil w).symm⟩

@[simp] theorem alignLoop_terminate_length (T : Nat) (w : Bits) :
    (alignLoop 7 (terminate T w)).length = alignedLength w.length T := by
  rw [alignLoop_length (Nat.le_of_lt_succ (ceil8_lt _)), terminate_length, alignedLength]

theorem alignLoop_terminate_eq (T : Nat) (w : Bits) :
    alignLoop 7 (terminate T w) = w ++ zeros (alignedLength w.length T - w.length) := by
  obtain ⟨n, hn⟩ := alignLoop_appends_zeros 7 (terminate T w)
  have happend : alignLoop 7 (terminate T w) = w ++ zeros (min termMax (T - w.length) + n) := by
    rw [hn, terminate, List.append_assoc, zeros, zeros, List.replicate_append_replicate, zeros]
  rw [← alignLoop_terminate_length, happend, List.length_append, zeros_length,
    Nat.add_sub_cancel_left]

theorem finishBits_getElem?_zero {T : Nat} {w : Bits} {j : Nat} (h0 : w.length ≤ j)
    (h2 : j < alignedLength w.length T) : (finishBits T w)[j]? = some false := by
  have hj : j < (alignLoop 7 (terminate T w)).length := by rwa [alignLoop_terminate_length]
  rw [finishBits, List.prefix_iff_getElem?.1 (prefix_fillLoop T _ 0 _) j hj,
    ← List.getElem?_eq_getElem hj, alignLoop_terminate_eq, List.getElem?_append_right h0, zeros,
    List.getElem?_replicate_of_lt (by omega)]

/-! ### The fill bytes: step 3 -/

/-- Bit `j` of what the loop appends belongs to its byte `j / 8`, counted on from `k`. -/
theorem fillLoop_getElem? {T fuel k : Nat} {w : Bits} {j : Nat}
    (h : w.length + j < (fillLoop T fuel k w).length) :
    (fillLoop T fuel k w)[w.length + j]? = some ((fillByte (k + j / 8)).getMsbD (j % 8)) := by
  induction fuel generalizing k w j with
  | zero => rw [fillLoop] at h; omega
  | succ fuel ih =>
    rw [fillLoop] at h ⊢
    split_ifs at h ⊢
    · by_cases hj : j < 8
      · have hlt : w.length + j < (w ++ bin8 (fillByte k)).length := by
          rw [List.length_append, bin8_length]; omega
        rw [List.prefix_iff_getElem?.1 (prefix_fillLoop T fuel (k + 1) _) _ hlt,
          ← List.getElem?_eq_getElem hlt, List.getElem?_append_right (by omega),
          Nat.add_sub_cancel_left, bin8_getElem? _ hj, Nat.div_eq_of_lt hj, Nat.mod_eq_of_lt hj,
          Nat.add_zero]
      · have hindex : (w ++ bin8 (fillByte k)).length + (j - 8) = w.length + j := by
          rw [List.length_append, bin8_length]; omega
        have hbyte : k + 1 + (j - 8) / 8 = k + j / 8 := by omega
        have hbit : (j - 8) % 8 = j % 8 := by omega
        rw [← hindex, ih (hindex ▸ h), hbyte, hbit]
    · omega

theorem finishBits_getElem?_fill {T : Nat} {w : Bits} {j : Nat} (h2 : alignedLength w.length T ≤ j)
    (h3 : j < finishedLength w.length T) :
    (finishBits T w)[j]? = some ((fillByte ((j - alignedLength w.length T) / 8)).getMsbD
      ((j - alignedLength w.length T) % 8)) := by
  have hindex : (alignLoop 7 (terminate T w)).length + (j - alignedLength w.length T) = j := by
    rw [alignLoop_terminate_length]; omega
  have hbit := fillLoop_getElem? (T := T) (fuel := T / 8) (k := 0)
    (w := alignLoop 7 (terminate T w)) (j := j - alignedLength w.length T)
  rw [hindex, Nat.zero_add] at hbit
  exact hbit (by rwa [← finishBits, finishBits_length])

theorem fillByte_getMsbD (k i : Nat) : (fillByte k).getMsbD i =
    if k % 2 = 0 then (0xEC : Byte).getMsbD i else (0x11 : Byte).getMsbD i :=
  apply_ite (BitVec.getMsbD · i) _ _ _

/-! ### The finished length against the target (R145, R146) -/

theorem finishedLength_mod (L0 T : Nat) : finishedLength L0 T % 8 = 0 := by
  have := ceil8_mod (L0 + min 4 (T - L0))
  unfold finishedLength
  omega

/-- R146 (a), (b): the terminated stream ends within the whole bytes of the target. -/
theorem finishedLength_of_terminated_le {L0 T : Nat} (h : L0 + min 4 (T - L0) ≤ 8 * (T / 8)) :
    finishedLength L0 T = 8 * (T / 8) := by
  unfold finishedLength ceil8
  omega

/-- R146 (c): it ends in the last, partial byte, so the alignment passes the target. -/
theorem finishedLength_of_lt_terminated {L0 T : Nat} (hle : L0 ≤ T)
    (h : 8 * (T / 8) < L0 + min 4 (T - L0)) : finishedLength L0 T = 8 * (T / 8) + 8 := by
  unfold finishedLength ceil8
  omega

theorem finishedLength_of_aligned_target {L0 T : Nat} (hle : L0 ≤ T) (hT : T % 8 = 0) :
    finishedLength L0 T = T := by
  rw [finishedLength_of_terminated_le] <;> omega

theorem finishedLength_near_target {L0 T : Nat} (hle : L0 ≤ T) :
    T ≤ finishedLength L0 T + 7 ∧ finishedLength L0 T ≤ T + 7 := by
  rcases Nat.lt_or_ge (8 * (T / 8)) (L0 + min 4 (T - L0)) with h | h
  · rw [finishedLength_of_lt_terminated hle h]
    omega
  · rw [finishedLength_of_terminated_le h]
    omega

/-! ### What FIN answers (R141 to R143) -/

theorem finCmd_error_of_bsMax_lt {P : Params} {s : State} (h : P.bsMax < s.bslen.toNat) :
    finCmd P s = .error (.bufferOverflow s.bslen.toNat) :=
  if_pos h

theorem finCmd_error_of_target_lt {P : Params} {s : State} (hmax : s.bslen.toNat ≤ P.bsMax)
    (h : s.target.toNat < s.bslen.toNat) :
    finCmd P s = .error (.targetTooSmall s.bslen.toNat) := by
  rw [finCmd, if_neg (Nat.not_lt.2 hmax), if_pos h]

theorem finCmd_error_of_bsMax_lt_finishedLength {P : Params} {s : State}
    (hmax : s.bslen.toNat ≤ P.bsMax) (htarget : s.bslen.toNat ≤ s.target.toNat)
    (h : P.bsMax < finishedLength s.bslen.toNat s.target.toNat) :
    finCmd P s = .error (.bufferOverflow (finishedLength s.bslen.toNat s.target.toNat)) := by
  rw [finCmd, if_neg (Nat.not_lt.2 hmax), if_neg (Nat.not_lt.2 htarget), finishStream,
    State.stream_length, if_pos h]

theorem exec_fin_of_error {s : State} {c : Cause} (h : finCmd Config.params s = .error c) :
    exec .fin s = .next (s.raise c) := by
  rw [exec_eq_conclude, commandWrites, h, conclude_error]

/-- The state FIN leaves when its checks pass. -/
def State.finished (s : State) : State :=
  (s.writeStream (finishBits s.target.toNat s.stream)).complete

theorem exec_fin_of_fits {s : State} (hmax : s.bslen.toNat ≤ Config.params.bsMax)
    (htarget : s.bslen.toNat ≤ s.target.toNat)
    (hfit : finishedLength s.bslen.toNat s.target.toNat ≤ Config.params.bsMax) :
    exec .fin s = .next s.finished := by
  rw [exec_eq_conclude, commandWrites, finCmd_ok hmax htarget hfit, conclude_ok, State.finished]

theorem exec_fin_done {s t : State} (h : exec .fin s = .next t) (hdone : t.status = 0b010) :
    s.bslen.toNat ≤ s.target.toNat ∧
      finishedLength s.bslen.toNat s.target.toNat ≤ Config.params.bsMax ∧ t = s.finished := by
  obtain ⟨u, hu, rfl⟩ := exec_done h hdone
  obtain ⟨-, htarget, w, hw, rfl⟩ := finCmd_inv hu
  rcases finishStream_cases Config.params s.target.toNat s.stream with ⟨-, he⟩ | ⟨hfit, he⟩ <;>
    rw [he] at hw <;> cases hw
  exact ⟨htarget, by rwa [State.stream_length] at hfit, rfl⟩

theorem State.finished_bslen (s : State) : s.finished.bslen =
    BitVec.ofNat 16 (finishedLength s.bslen.toNat s.target.toNat) := by
  rw [State.finished, State.complete_bslen, State.writeStream_bslen, finishBits_length,
    State.stream_length]

theorem State.finished_bslen_toNat {s : State}
    (hfit : finishedLength s.bslen.toNat s.target.toNat ≤ Config.params.bsMax) :
    s.finished.bslen.toNat = finishedLength s.bslen.toNat s.target.toNat := by
  have hbs := Config.bsMax_bounds.2
  rw [State.finished_bslen, BitVec.toNat_ofNat]
  omega

theorem State.finished_eq_endsClean (s : State) : s.finished = State.endsClean { s with
    bs := s.finished.bs
    bslen := BitVec.ofNat 16 (finishedLength s.bslen.toNat s.target.toNat) } := by
  rw [← State.finished_bslen]
  rfl

theorem State.readBs_finished {s : State} {j : Nat} {b : Bool}
    (h : (finishBits s.target.toNat s.stream)[j]? = some b) : s.finished.readBs j = b :=
  (State.readBs_writeStream _ s j).trans (by rw [h, Option.getD_some])

/-! ### The obligations -/

/-- Settles O20: the old stream and the bits beyond are the frame of FIN, the bits between are those of
`finishBits`. -/
theorem finAppendsZerosAndFillBytes : Obligations.FinAppendsZerosAndFillBytes := by
  intro s L1 L2 L3 hmax htarget h1 h2 h3 hfit
  obtain rfl : L2 = alignedLength s.bslen.toNat s.target.toNat := by rw [h2, h1]; rfl
  rw [← finishedLength_eq_max] at h3
  subst h3
  have hexec := exec_fin_of_fits hmax htarget hfit
  have hlen := State.finished_bslen_toNat hfit
  have hframe {j : Nat} := (exec_extends_frame (j := j) (.inl rfl) hexec).1
  refine ⟨_, hexec, s.finished_eq_endsClean, hlen, fun j hj => hframe (.inl hj),
    fun j h0 h2 => ?zeros, fun j h2 h3 => ?fill, fun j h3 => hframe (.inr (hlen ▸ h3))⟩
  case zeros =>
    rw [← State.stream_length] at h0 h2
    exact State.readBs_finished (finishBits_getElem?_zero h0 h2)
  case fill =>
    rw [← State.stream_length] at h2 h3 ⊢
    rw [State.readBs_finished (finishBits_getElem?_fill h2 h3), fillByte_getMsbD]

/-- Settles O22: FIN completes only with the target at or above the stream, and then BSLEN is the
closed form. -/
theorem finishedLengthCases : Obligations.FinishedLengthCases := by
  intro s t h hdone
  obtain ⟨hle, hfit, rfl⟩ := exec_fin_done h hdone
  rw [State.finished_bslen_toNat hfit]
  exact ⟨finishedLength_mod _ _, finishedLength_of_aligned_target hle,
    fun _ => finishedLength_of_terminated_le, fun _ => finishedLength_of_lt_terminated hle,
    finishedLength_near_target hle⟩

/-- Settles O21, each clause by the check that fails; a target 7 bits below `BS_MAX` leaves room for
the alignment. -/
theorem finRefusesWhatDoesNotFit : Obligations.FinRefusesWhatDoesNotFit :=
  ⟨fun _ _ => finCmd_error_of_bsMax_lt, fun _ hmax =>
    ⟨fun h => exec_fin_of_error (finCmd_error_of_target_lt hmax h),
      fun htarget h =>
        exec_fin_of_error (finCmd_error_of_bsMax_lt_finishedLength hmax htarget h),
      fun htarget h => (finishedLength_near_target htarget).2.trans h⟩⟩

end Sys2Proof.Machine
end

section
/-! The arithmetic of GF(256) (43_error_correction_encoder.md R151 to R153). A byte stands for a polynomial
over GF(2) modulo the field polynomial, and the loop of `gf_mul` multiplies these: so its laws are those
of a commutative ring, and it has inverses because the test of R151 makes that ring a field. -/

namespace Sys2Proof.Machine

open Polynomial

/-! ### Numbers as polynomials over GF(2) -/

/-- The polynomial over GF(2) whose coefficients are the bits of `n` (R151). -/
noncomputable def gf2Poly (n : Nat) : (ZMod 2)[X] := ∑ i ∈ n.bitIndices.toFinset, X ^ i

theorem gf2Poly_coeff (n i : Nat) : (gf2Poly n).coeff i = if n.testBit i then 1 else 0 := by
  simp [gf2Poly, coeff_X_pow]

@[simp] theorem gf2Poly_zero : gf2Poly 0 = 0 := rfl

theorem gf2Poly_xor (m n : Nat) : gf2Poly (m ^^^ n) = gf2Poly m + gf2Poly n := by
  ext i
  rw [coeff_add, gf2Poly_coeff, gf2Poly_coeff, gf2Poly_coeff, Nat.testBit_xor]
  cases m.testBit i <;> cases n.testBit i <;> rfl

theorem gf2Poly_shiftLeft (n k : Nat) : gf2Poly (n <<< k) = X ^ k * gf2Poly n := by
  ext i
  simp only [coeff_X_pow_mul', gf2Poly_coeff, Nat.testBit_shiftLeft, Bool.and_eq_true,
    decide_eq_true_eq, ite_and, ge_iff_le]

theorem gf2Poly_shiftRight_one (n : Nat) : gf2Poly (n >>> 1) = (gf2Poly n).divX := by
  ext i
  rw [coeff_divX, gf2Poly_coeff, gf2Poly_coeff, Nat.testBit_shiftRight, Nat.add_comm]

theorem gf2Poly_degree_lt {n k : Nat} (h : n < 2 ^ k) : (gf2Poly n).degree < k := by
  refine (degree_lt_iff_coeff_zero _ _).2 fun i hi => ?_
  rw [gf2Poly_coeff, Nat.testBit_lt_two_pow (h.trans_le (Nat.pow_le_pow_right two_pos hi))]
  rfl

theorem gf2Poly_injective : Function.Injective gf2Poly := by
  intro m n h
  refine Nat.eq_of_testBit_eq fun i => ?_
  have hi := congrArg (·.coeff i) h
  simp only [gf2Poly_coeff] at hi
  revert hi
  cases m.testBit i <;> cases n.testBit i <;> simp

/-- A polynomial over GF(2) has no coefficients but 0 and 1, so it is the bits of a number. -/
theorem gf2Poly_surjective : Function.Surjective gf2Poly := by
  intro q
  refine ⟨Finset.equivBitIndices.symm q.support, ?_⟩
  have hbits : (Finset.equivBitIndices.symm q.support).bitIndices.toFinset = q.support :=
    Finset.equivBitIndices.apply_symm_apply _
  have hone : ∀ c : ZMod 2, c ≠ 0 → c = 1 := by decide
  rw [gf2Poly, hbits]
  conv_rhs => rw [q.as_sum_support]
  refine Finset.sum_congr rfl fun i hi => ?_
  rw [hone _ (mem_support_iff.1 hi), X_pow_eq_monomial]

theorem gf2Poly_isMonicOfDegree_iff {n k : Nat} :
    IsMonicOfDegree (gf2Poly n) k ↔ 2 ^ k ≤ n ∧ n < 2 ^ (k + 1) := by
  rw [isMonicOfDegree_iff, natDegree_le_iff_coeff_eq_zero]
  simp only [gf2Poly_coeff, ite_eq_left_iff, ite_eq_right_iff, one_ne_zero, zero_ne_one, imp_false,
    Bool.not_eq_true, Bool.not_eq_false]
  constructor
  · rintro ⟨hhigh, htop⟩
    exact ⟨Nat.ge_two_pow_of_testBit htop, Nat.lt_pow_two_of_testBit n hhigh⟩
  · rintro ⟨hlo, hhi⟩
    exact ⟨fun i hi => Nat.testBit_lt_two_pow (hhi.trans_le (Nat.pow_le_pow_right two_pos hi)),
      Nat.testBit_of_two_pow_le_and_two_pow_add_one_gt hlo hhi⟩

/-! ### Long division (R151) -/

theorem gf2Reduce_of_lt {d n a k : Nat} (h : k < n) : gf2Reduce d n a k = a := by
  simp [gf2Reduce, h]

/-- A round takes a multiple of the divisor away. -/
theorem dvd_gf2Reduce_iff (d n a k : Nat) :
    gf2Poly d ∣ gf2Poly (gf2Reduce d n a k) ↔ gf2Poly d ∣ gf2Poly a := by
  unfold gf2Reduce
  split_ifs
  · rw [gf2Poly_xor, gf2Poly_shiftLeft]
    exact dvd_add_left (dvd_mul_left _ _)
  · rfl

theorem lt_two_pow_of_testBit_eq_false {a k : Nat} (ha : a < 2 ^ (k + 1))
    (hk : a.testBit k = false) : a < 2 ^ k := by
  by_contra hge
  rw [Nat.testBit_of_two_pow_le_and_two_pow_add_one_gt (Nat.not_lt.1 hge) ha] at hk
  cases hk

/-- A round clears the top bit. -/
theorem gf2Reduce_lt {d n a k : Nat} (hd : 2 ^ n ≤ d ∧ d < 2 ^ (n + 1)) (hn : n ≤ k)
    (ha : a < 2 ^ (k + 1)) : gf2Reduce d n a k < 2 ^ k := by
  have htop : d.testBit n = true := Nat.testBit_of_two_pow_le_and_two_pow_add_one_gt hd.1 hd.2
  unfold gf2Reduce
  cases hbit : a.testBit k with
  | false => simpa using lt_two_pow_of_testBit_eq_false ha hbit
  | true =>
    have hshift : d <<< (k - n) < 2 ^ (k + 1) := by
      rw [Nat.shiftLeft_eq, show k + 1 = n + 1 + (k - n) by omega, Nat.pow_add]
      exact Nat.mul_lt_mul_of_pos_right hd.2 (Nat.two_pow_pos _)
    have hsame : (d <<< (k - n)).testBit k = true := by
      rw [Nat.testBit_shiftLeft, Nat.sub_sub_self hn, htop]
      simp
    rw [if_pos (by simpa using hn)]
    exact lt_two_pow_of_testBit_eq_false (Nat.xor_lt_two_pow ha hshift)
      (by rw [Nat.testBit_xor, hbit, hsame]; rfl)

/-- The rounds `k - 1, …, 0` leave a remainder of degree below that of the divisor. -/
theorem foldl_gf2Reduce_lt {d n : Nat} (hd : 2 ^ n ≤ d ∧ d < 2 ^ (n + 1)) {k a : Nat}
    (ha : a < 2 ^ max n k) : (List.range k).reverse.foldl (gf2Reduce d n) a < 2 ^ n := by
  induction k generalizing a with
  | zero => simpa using ha
  | succ k ih =>
    rw [List.range_succ, List.reverse_append, List.reverse_singleton, List.singleton_append,
      List.foldl_cons]
    apply ih
    rcases Nat.lt_or_ge k n with hlt | hge
    · rw [Nat.max_eq_left hlt] at ha
      rwa [gf2Reduce_of_lt hlt, Nat.max_eq_left (Nat.le_of_lt hlt)]
    · rw [Nat.max_eq_right (Nat.le_succ_of_le hge)] at ha
      rw [Nat.max_eq_right hge]
      exact gf2Reduce_lt hd hge ha

theorem dvd_foldl_gf2Reduce_iff (d n : Nat) (ks : List Nat) (a : Nat) :
    gf2Poly d ∣ gf2Poly (ks.foldl (gf2Reduce d n) a) ↔ gf2Poly d ∣ gf2Poly a := by
  induction ks generalizing a with
  | nil => rfl
  | cons k ks ih => rw [List.foldl_cons, ih, dvd_gf2Reduce_iff]

/-- A divisor leaves the remainder 0, the only multiple of it of lower degree. -/
theorem gf2Mod_eq_zero_of_dvd {a d n : Nat} (ha : a < 2 ^ 9) (hd : 2 ^ n ≤ d ∧ d < 2 ^ (n + 1))
    (h : gf2Poly d ∣ gf2Poly a) : gf2Mod a d n = 0 := by
  have hlt : gf2Mod a d n < 2 ^ n := foldl_gf2Reduce_lt (k := 9) hd
    (ha.trans_le (Nat.pow_le_pow_right two_pos (Nat.le_max_right n 9)))
  have hdvd : gf2Poly d ∣ gf2Poly (gf2Mod a d n) := (dvd_foldl_gf2Reduce_iff d n _ a).2 h
  obtain ⟨hdeg, hmonic⟩ := gf2Poly_isMonicOfDegree_iff.2 hd
  apply gf2Poly_injective
  by_contra hne
  refine hmonic.not_dvd_of_degree_lt hne ?_ hdvd
  rw [degree_eq_natDegree hmonic.ne_zero, hdeg]
  exact gf2Poly_degree_lt hlt

/-- The test of R151 rules out every divisor of degree 1 to 4, and a proper factor of least degree has
such a degree. -/
theorem irreducible_of_gfIrreducible {p : BitVec 9} (h : gfIrreducible p = true) :
    p.getLsbD 8 = true ∧ Irreducible (gf2Poly p.toNat) := by
  simp only [gfIrreducible, Bool.and_eq_true, List.all_eq_true, List.mem_range, bne_iff_ne] at h
  obtain ⟨htop, hnodiv⟩ := h
  obtain ⟨hdeg, hmonic⟩ := gf2Poly_isMonicOfDegree_iff.2
    ⟨Nat.ge_two_pow_of_testBit htop, p.isLt⟩
  refine ⟨htop, (hmonic.irreducible_iff_lt_natDegree_lt ?_).2 fun q hq hn hdvd => ?_⟩
  · intro h1
    rw [h1, natDegree_one] at hdeg
    cases hdeg
  · obtain ⟨d, rfl⟩ := gf2Poly_surjective q
    have hd := gf2Poly_isMonicOfDegree_iff.1 ⟨rfl, hq⟩
    rw [hdeg, Finset.mem_Ioc] at hn
    generalize (gf2Poly d).natDegree = n at hd hn
    refine hnodiv n (by simp; omega) (d - 2 ^ n) (by omega) ?_
    rw [Nat.add_sub_cancel' hd.1]
    exact gf2Mod_eq_zero_of_dvd p.isLt hd hdvd

/-! ### Bytes as polynomials modulo the field polynomial -/

/-- The polynomial the loop of `gf_mul` reduces by: it reads the low eight bits of `poly` and has
degree 8 whatever bit 8 is (R153). -/
noncomputable def fieldPoly (poly : BitVec 9) : (ZMod 2)[X] := gf2Poly (poly ||| 0x100).toNat

/-- The element of GF(2)[X] modulo the field polynomial that a byte stands for (R151). -/
noncomputable def gfValue (poly : BitVec 9) (a : Byte) : AdjoinRoot (fieldPoly poly) :=
  AdjoinRoot.mk _ (gf2Poly a.toNat)

theorem fieldPoly_isMonicOfDegree (poly : BitVec 9) : IsMonicOfDegree (fieldPoly poly) 8 := by
  refine gf2Poly_isMonicOfDegree_iff.2 ⟨Nat.ge_two_pow_of_testBit ?_, (poly ||| 0x100).isLt⟩
  rw [← BitVec.getLsbD, BitVec.getLsbD_or]
  simp

theorem gfValue_injective (poly : BitVec 9) : Function.Injective (gfValue poly) := by
  intro a b h
  obtain ⟨hdeg, hmonic⟩ := fieldPoly_isMonicOfDegree poly
  apply BitVec.eq_of_toNat_eq
  apply gf2Poly_injective
  by_contra hne
  refine hmonic.not_dvd_of_degree_lt (sub_ne_zero.2 hne) ?_ (AdjoinRoot.mk_eq_mk.1 h)
  rw [degree_eq_natDegree hmonic.ne_zero, hdeg]
  exact (degree_sub_le _ _).trans_lt
    (max_lt (gf2Poly_degree_lt a.isLt) (gf2Poly_degree_lt b.isLt))

@[simp] theorem gfValue_zero (poly : BitVec 9) : gfValue poly 0#8 = 0 := by
  simp [gfValue]

@[simp] theorem gfValue_one (poly : BitVec 9) : gfValue poly 1#8 = 1 := by
  simp [gfValue, gf2Poly]

@[simp] theorem gfValue_xor (poly : BitVec 9) (a b : Byte) :
    gfValue poly (a ^^^ b) = gfValue poly a + gfValue poly b := by
  simp [gfValue, gf2Poly_xor]

/-- What one round of `gf_mul` makes of `a`. -/
def gfTimesX (poly : BitVec 9) (a : Byte) : Byte :=
  if a.getLsbD 7 then (a <<< 1) ^^^ poly.setWidth 8 else a <<< 1

/-- The bit that leaves the byte on the left is the leading bit of the polynomial taken away. Checked at
each of the nine bits. -/
theorem shiftLeft_eq_gfTimesX (poly : BitVec 9) (a : Byte) :
    a.setWidth 9 <<< 1 =
      (gfTimesX poly a).setWidth 9 ^^^ if a.getLsbD 7 then poly ||| 0x100 else 0 := by
  apply BitVec.eq_of_getLsbD_eq
  intro i hi
  unfold gfTimesX
  cases h : a.getLsbD 7 <;> interval_cases i <;> simp_all

@[simp] theorem gfValue_gfTimesX (poly : BitVec 9) (a : Byte) :
    gfValue poly (gfTimesX poly a) = AdjoinRoot.root _ * gfValue poly a := by
  have hshift : a.toNat <<< 1 = (gfTimesX poly a).toNat ^^^
      (if a.getLsbD 7 then poly ||| 0x100 else 0).toNat := by
    have h := congrArg BitVec.toNat (shiftLeft_eq_gfTimesX poly a)
    rw [BitVec.toNat_xor, BitVec.toNat_setWidth_of_le (by decide), BitVec.toNat_shiftLeft,
      BitVec.toNat_setWidth_of_le (by decide)] at h
    rw [← h, Nat.shiftLeft_eq]
    omega
  have hreduced : AdjoinRoot.mk (fieldPoly poly)
      (gf2Poly (if a.getLsbD 7 then poly ||| 0x100 else 0).toNat) = 0 := by
    split_ifs
    · exact AdjoinRoot.mk_self
    · simp
  calc gfValue poly (gfTimesX poly a)
      = AdjoinRoot.mk _ (gf2Poly (a.toNat <<< 1)) := by
        rw [hshift, gf2Poly_xor, map_add, hreduced, add_zero, gfValue]
    _ = AdjoinRoot.root _ * gfValue poly a := by
        rw [gf2Poly_shiftLeft, pow_one, map_mul, AdjoinRoot.mk_X, gfValue]

/-- A byte is `x` times the bits above the lowest, and the lowest. -/
theorem gfValue_eq_shiftRight (poly : BitVec 9) (b : Byte) :
    gfValue poly b =
      gfValue poly (b >>> 1) * AdjoinRoot.root _ + if b.getLsbD 0 then 1 else 0 := by
  have hlow : AdjoinRoot.mk (fieldPoly poly) (C ((gf2Poly b.toNat).coeff 0)) =
      if b.getLsbD 0 then 1 else 0 := by
    rw [gf2Poly_coeff, ← BitVec.getLsbD]
    split_ifs <;> simp
  rw [← hlow, ← AdjoinRoot.mk_X, gfValue, gfValue, ← map_mul, ← map_add,
    BitVec.toNat_ushiftRight, gf2Poly_shiftRight_one, divX_mul_X_add]

theorem gfMulLoop_succ (poly : BitVec 9) (k : Nat) (p a b : Byte) :
    gfMulLoop poly (k + 1) p a b =
      gfMulLoop poly k (if b.getLsbD 0 then p ^^^ a else p) (gfTimesX poly a) (b >>> 1) :=
  rfl

/-- `k` rounds add the product by the lowest `k` bits. -/
theorem gfValue_gfMulLoop (poly : BitVec 9) {k : Nat} {p a b : Byte} (hb : b.toNat < 2 ^ k) :
    gfValue poly (gfMulLoop poly k p a b) = gfValue poly p + gfValue poly a * gfValue poly b := by
  induction k generalizing p a b with
  | zero =>
    obtain rfl : b = 0 := by bv_omega
    simp [gfMulLoop]
  | succ k ih =>
    have hb' : (b >>> 1).toNat < 2 ^ k := by
      rw [BitVec.toNat_ushiftRight, Nat.shiftRight_one]
      omega
    rw [gfMulLoop_succ, ih hb', gfValue_gfTimesX, gfValue_eq_shiftRight poly b]
    split_ifs
    · rw [gfValue_xor]
      ring
    · ring

/-- `gf_mul` is polynomial multiplication modulo the field polynomial (R151, R153). -/
@[simp] theorem gfValue_gfMul (poly : BitVec 9) (a b : Byte) :
    gfValue poly (gfMul poly a b) = gfValue poly a * gfValue poly b := by
  simp [gfMul, gfValue_gfMulLoop poly b.isLt]

/-! ### The laws -/

section Laws

variable (poly : BitVec 9)

theorem gfMul_comm (a b : Byte) : gfMul poly a b = gfMul poly b a :=
  gfValue_injective poly (by simp only [gfValue_gfMul, mul_comm])

theorem gfMul_assoc (a b d : Byte) :
    gfMul poly (gfMul poly a b) d = gfMul poly a (gfMul poly b d) :=
  gfValue_injective poly (by simp only [gfValue_gfMul, mul_assoc])

theorem gfMul_xor (a b d : Byte) : gfMul poly a (b ^^^ d) = gfMul poly a b ^^^ gfMul poly a d :=
  gfValue_injective poly (by simp only [gfValue_gfMul, gfValue_xor, mul_add])

@[simp] theorem gfMul_zero (a : Byte) : gfMul poly a 0#8 = 0#8 :=
  gfValue_injective poly (by simp)

@[simp] theorem zero_gfMul (a : Byte) : gfMul poly 0#8 a = 0#8 :=
  gfValue_injective poly (by simp)

@[simp] theorem gfMul_one (a : Byte) : gfMul poly a 1#8 = a :=
  gfValue_injective poly (by simp)

@[simp] theorem one_gfMul (a : Byte) : gfMul poly 1#8 a = a :=
  gfValue_injective poly (by simp)

end Laws

/-! ### Inverses (R151) -/

theorem fieldPoly_of_top {poly : BitVec 9} (h : poly.getLsbD 8 = true) :
    fieldPoly poly = gf2Poly poly.toNat := by
  have hset : poly ||| 0x100 = poly := by
    apply BitVec.eq_of_getLsbD_eq
    intro i hi
    interval_cases i <;> simp_all
  rw [fieldPoly, hset]

/-- In a field no multiplication by a non-zero element loses anything, and on the bytes, which are
finitely many, it therefore reaches 1. -/
theorem exists_gfMul_eq_one {poly : BitVec 9} (h : gfIrreducible poly = true) {a : Byte}
    (ha : a ≠ 0) : ∃ b, gfMul poly a b = 1 := by
  obtain ⟨htop, hirr⟩ := irreducible_of_gfIrreducible h
  have : Fact (Irreducible (fieldPoly poly)) := ⟨by rwa [fieldPoly_of_top htop]⟩
  have hne : gfValue poly a ≠ 0 := fun h0 =>
    ha (gfValue_injective poly (h0.trans (gfValue_zero poly).symm))
  have hinj : Function.Injective (gfMul poly a) := fun b d hbd => by
    have hval := congrArg (gfValue poly) hbd
    rw [gfValue_gfMul, gfValue_gfMul] at hval
    exact gfValue_injective poly (mul_left_cancel₀ hne hval)
  exact Finite.injective_iff_surjective.1 hinj 1

/-! ### The obligations -/

/-- Settles O23: the laws are those of polynomials modulo the field polynomial, the six products are
computed. -/
theorem gfMulLaws : Obligations.GfMulLaws :=
  ⟨fun poly a b d => ⟨gfMul_comm poly a b, gfMul_assoc poly a b d, gfMul_xor poly a b d,
    gfMul_zero poly a, gfMul_one poly a⟩, by decide⟩

/-- Settles O24 from the irreducibility of R151 alone. -/
theorem nonZeroElementsHaveInverses : Obligations.NonZeroElementsHaveInverses :=
  fun _ => exists_gfMul_eq_one (Params.gfPoly_irreducible Config.params_valid)

end Sys2Proof.Machine
end

section
/-! The redundancy (43_error_correction_encoder.md R155 to R157, R161). One lemma gives every coefficient
after a round of the division; the quotient, the linearity and the codeword follow round by round. -/

namespace Sys2Proof.Machine

/-! ### Coefficients of a list of bytes, 0 beyond its end -/

theorem getElem?_eq_some_coeff {l : List Byte} {j : Nat} (h : j < l.length) :
    l[j]? = some (l[j]?.getD 0) := by
  rw [List.getElem?_eq_getElem h, Option.getD_some]

theorem eq_of_coeff_eq {l l' : List Byte} (hlen : l.length = l'.length)
    (h : ∀ j : Nat, l[j]?.getD 0 = l'[j]?.getD 0) : l = l' := by
  refine List.ext_getElem hlen fun j hj hj' => ?_
  simpa [hj, hj'] using h j

@[simp] theorem replicate_zero_coeff (n j : Nat) :
    (List.replicate n (0#8))[j]?.getD 0#8 = 0#8 := by
  rw [List.getElem?_replicate]
  split_ifs <;> rfl

/-! ### One round of the division (R157) -/

theorem rsGen_zero {P : Params} (hP : P.valid = true) : P.rsGen[0]? = some 1 := by
  rw [← List.head?_eq_getElem?]
  exact (Params.rsGen_shape hP).2

/-- Coefficient `j` after a round: the next coefficient, and the generator's next one times the
quotient byte. -/
theorem rsStep_coeff {P : Params} (hP : P.valid = true) {r : List Byte} (hr : r.length = 7)
    (x : Byte) (j : Nat) :
    (rsStep P r x)[j]?.getD 0 = r[j + 1]?.getD 0 ^^^
      gfMul P.gfPoly (P.rsGen[j + 1]?.getD 0) (x ^^^ r[0]?.getD 0) := by
  have hg := (Params.rsGen_shape hP).1
  rcases Nat.lt_or_ge j 7 with hj | hj
  · have hshift : (r.tail ++ [0])[j]? = some (r[j + 1]?.getD 0) := by
      obtain rfl | hlt := Nat.eq_or_lt_of_le (Nat.le_of_lt_succ hj)
      · simp [hr]
      · rw [List.getElem?_append_left (by simpa [hr] using hlt), List.getElem?_tail]
        exact getElem?_eq_some_coeff (by omega)
    have hgen : P.rsGen.tail[j]? = some (P.rsGen[j + 1]?.getD 0) := by
      rw [List.getElem?_tail]
      exact getElem?_eq_some_coeff (by omega)
    rw [rsStep, List.getElem?_zipWith, hshift, hgen, List.headD_eq_head?_getD,
      List.head?_eq_getElem?]
    rfl
  · simp [rsStep_length hP hr, hr, hg, hj, Nat.le_succ_of_le]

/-! ### The quotient (R156) -/

theorem rsRemainder_concat (P : Params) (d : List Byte) (x : Byte) :
    rsRemainder P (d ++ [x]) = rsStep P (rsRemainder P d) x :=
  List.foldl_concat ..

/-- What quotient coefficient `i` adds to coefficient `m` of the product with the generator. -/
def quotientTerm (P : Params) (q : List Byte) (m i : Nat) : Byte :=
  if i ≤ m ∧ m - i ≤ 7 then gfMul P.gfPoly (P.rsGen[m - i]?.getD 0) (q[i]?.getD 0) else 0

/-- Coefficient `m`, highest degree first, of the product of the quotient `q` and the generator. -/
def quotientProduct (P : Params) (q : List Byte) (m : Nat) : Byte :=
  ((List.range q.length).map (quotientTerm P q m)).foldl (fun x y => x ^^^ y) 0

theorem quotientProduct_concat {P : Params} (hP : P.valid = true) (q : List Byte) (f : Byte)
    (m : Nat) :
    quotientProduct P (q ++ [f]) m = quotientProduct P q m ^^^
      if q.length ≤ m then gfMul P.gfPoly (P.rsGen[m - q.length]?.getD 0) f else 0 := by
  have hold : ∀ i ∈ List.range q.length,
      quotientTerm P (q ++ [f]) m i = quotientTerm P q m i := by
    intro i hi
    rw [quotientTerm, List.getElem?_append_left (List.mem_range.1 hi), quotientTerm]
  have hnew : quotientTerm P (q ++ [f]) m q.length =
      if q.length ≤ m then gfMul P.gfPoly (P.rsGen[m - q.length]?.getD 0) f else 0 := by
    rw [quotientTerm, List.getElem?_concat_length, Option.getD_some, ite_and]
    split_ifs with h h7
    · rfl
    · rw [List.getElem?_eq_none (by rw [(Params.rsGen_shape hP).1]; omega), Option.getD_none]
      exact (zero_gfMul _ _).symm
    · rfl
  rw [quotientProduct, List.length_append, List.length_singleton, List.range_succ,
    List.map_append, List.map_congr_left hold, List.foldl_append, ← quotientProduct,
    List.map_singleton, hnew]
  rfl

/-- A round extends the quotient by the byte `f` of R157: its product with the leading coefficient is
what turns the old remainder's first byte into the data byte, and its product with the others is what
the round takes away. -/
theorem exists_quotient {P : Params} (hP : P.valid = true) (d : List Byte) :
    ∃ q : List Byte, q.length = d.length ∧
      ∀ m, (d ++ rsRemainder P d)[m]?.getD 0 = quotientProduct P q m := by
  induction d using List.reverseRecOn with
  | nil => exact ⟨[], rfl, replicate_zero_coeff 7⟩
  | append_singleton d x ih =>
    obtain ⟨q, hlen, hq⟩ := ih
    have hr := rsRemainder_length hP d
    generalize hrd : rsRemainder P d = r at hq hr
    refine ⟨q ++ [x ^^^ r[0]?.getD 0], by simp [hlen], fun m => ?_⟩
    rw [quotientProduct_concat hP, ← hq, hlen, rsRemainder_concat, hrd]
    rcases Nat.lt_or_ge m d.length with hm | hm
    · simp [hm, Nat.not_le.2 hm, List.getElem?_append_left]
    · obtain ⟨j, rfl⟩ := Nat.exists_eq_add_of_le hm
      rw [if_pos hm, List.append_assoc, List.getElem?_append_right hm,
        List.getElem?_append_right hm, Nat.add_sub_cancel_left]
      cases j with
      | zero =>
        rw [rsGen_zero hP]
        simp
      | succ j => exact rsStep_coeff hP hr x j

/-! ### Linearity (R161) -/

/-- The bytewise exclusive or of two lists. -/
def xorBytes (l l' : List Byte) : List Byte := List.zipWith (fun x y => x ^^^ y) l l'

@[simp] theorem xorBytes_length (l l' : List Byte) :
    (xorBytes l l').length = min l.length l'.length :=
  List.length_zipWith

theorem xorBytes_cons (x y : Byte) (d e : List Byte) :
    xorBytes (x :: d) (y :: e) = (x ^^^ y) :: xorBytes d e :=
  rfl

theorem xorBytes_coeff {l l' : List Byte} (h : l.length = l'.length) (j : Nat) :
    (xorBytes l l')[j]?.getD 0 = l[j]?.getD 0 ^^^ l'[j]?.getD 0 := by
  rcases Nat.lt_or_ge j l.length with hj | hj
  · simp [xorBytes, hj, h ▸ hj]
  · simp [xorBytes, hj, h ▸ hj]

theorem rsStep_xor {P : Params} (hP : P.valid = true) {r r' : List Byte} (hr : r.length = 7)
    (hr' : r'.length = 7) (x y : Byte) :
    rsStep P (xorBytes r r') (x ^^^ y) = xorBytes (rsStep P r x) (rsStep P r' y) := by
  have hxor : (xorBytes r r').length = 7 := by simp [hr, hr']
  have hlen : r.length = r'.length := hr.trans hr'.symm
  have hlen' : (rsStep P r x).length = (rsStep P r' y).length :=
    (rsStep_length hP hr x).trans (rsStep_length hP hr' y).symm
  have hquot : x ^^^ y ^^^ (r[0]?.getD 0 ^^^ r'[0]?.getD 0) =
      x ^^^ r[0]?.getD 0 ^^^ (y ^^^ r'[0]?.getD 0) := by ac_rfl
  refine eq_of_coeff_eq (by simp [rsStep_length hP, hr, hr']) fun j => ?_
  rw [rsStep_coeff hP hxor, xorBytes_coeff hlen, xorBytes_coeff hlen, xorBytes_coeff hlen',
    rsStep_coeff hP hr, rsStep_coeff hP hr', hquot, gfMul_xor]
  ac_rfl

theorem foldl_rsStep_xor {P : Params} (hP : P.valid = true) {d e r r' : List Byte}
    (hde : d.length = e.length) (hr : r.length = 7) (hr' : r'.length = 7) :
    (xorBytes d e).foldl (rsStep P) (xorBytes r r') =
      xorBytes (d.foldl (rsStep P) r) (e.foldl (rsStep P) r') := by
  induction d generalizing e r r' with
  | nil =>
    obtain rfl := List.eq_nil_of_length_eq_zero hde.symm
    rfl
  | cons x d ih =>
    cases e with
    | nil => cases hde
    | cons y e =>
      rw [xorBytes_cons, List.foldl_cons, rsStep_xor hP hr hr']
      exact ih (Nat.succ.inj hde) (rsStep_length hP hr x) (rsStep_length hP hr' y)

/-- A first data byte leaves its multiples of the generator. -/
theorem rsRemainder_singleton {P : Params} (hP : P.valid = true) (v : Byte) :
    rsRemainder P [v] = P.rsGen.tail.map fun g => gfMul P.gfPoly g v := by
  refine eq_of_coeff_eq ?_ fun j => ?_
  · rw [rsRemainder_length hP, List.length_map, Params.rsGen_tail_length hP]
  · rw [rsRemainder, List.foldl_cons, List.foldl_nil,
      rsStep_coeff hP (r := List.replicate nEc 0) rfl, List.getElem?_map, List.getElem?_tail]
    cases P.rsGen[j + 1]? <;> simp

theorem rsRemainder_zero_cons {P : Params} (hP : P.valid = true) (d : List Byte) :
    rsRemainder P (0 :: d) = rsRemainder P d := by
  have hstep : rsStep P (List.replicate nEc 0) 0 = List.replicate nEc 0 := by
    refine (rsRemainder_singleton hP 0).trans ?_
    simp [(Params.rsGen_shape hP).1, nEc]
  rw [rsRemainder, List.foldl_cons, hstep, rsRemainder]

theorem rsRemainder_replicate_zero {P : Params} (hP : P.valid = true) (n : Nat) :
    rsRemainder P (List.replicate n 0) = List.replicate 7 0 := by
  induction n with
  | zero => rfl
  | succ n ih => rw [List.replicate_succ, rsRemainder_zero_cons hP, ih]

/-! ### The codeword (R161) -/

/-- The leading coefficient as data gives the quotient 0, so a round is a shift. -/
theorem rsStep_head {P : Params} (hP : P.valid = true) {x : Byte} {r : List Byte}
    (hr : (x :: r).length = 7) : rsStep P (x :: r) x = r ++ [0] := by
  refine eq_of_coeff_eq ?_ fun j => ?_
  · rw [rsStep_length hP hr, List.length_append]
    exact hr.symm
  · rw [rsStep_coeff hP hr, List.getElem?_append]
    split_ifs with hj
    · simp
    · simp [Nat.not_lt.1 hj]

/-- Rounds over the remainder itself shift it out. -/
theorem foldl_rsStep_self {P : Params} (hP : P.valid = true) {r : List Byte} {k : Nat}
    (hr : r.length + k = 7) :
    r.foldl (rsStep P) (r ++ List.replicate k 0) = List.replicate 7 0 := by
  induction r generalizing k with
  | nil =>
    obtain rfl : k = 7 := by simpa using hr
    rfl
  | cons x r ih =>
    have hlen : (x :: (r ++ List.replicate k 0)).length = 7 := by
      rw [← hr, ← List.cons_append, List.length_append, List.length_replicate]
    rw [List.foldl_cons, List.cons_append, rsStep_head hP hlen, List.append_assoc,
      ← List.replicate_succ']
    exact ih (by rw [← hr, List.length_cons]; omega)

/-! ### The obligations -/

/-- Settles O25, with the quotient bytes of the rounds. -/
theorem redundancyIsTheRemainder : Obligations.RedundancyIsTheRemainder := by
  intro d
  have hlen := rsRemainder_length Config.params_valid d
  obtain ⟨q, hq, hcoeff⟩ := exists_quotient Config.params_valid d
  refine ⟨q, hq, hlen, fun m hm => ?_⟩
  rw [getElem?_eq_some_coeff (by simpa [hlen] using hm), hcoeff, quotientProduct, hq]
  rfl

/-- Settles O26: a round is linear, and the rounds start from zeros. -/
theorem redundancyIsLinear : Obligations.RedundancyIsLinear := by
  refine ⟨fun d e h => ?linear, rsRemainder_replicate_zero Config.params_valid,
    rsRemainder_zero_cons Config.params_valid, rsRemainder_singleton Config.params_valid⟩
  case linear =>
    exact foldl_rsStep_xor Config.params_valid (r := List.replicate nEc 0)
      (r' := List.replicate nEc 0) h rfl rfl

/-- Settles O27: the rounds over the redundancy shift it out. -/
theorem codewordHasZeroRedundancy : Obligations.CodewordHasZeroRedundancy := by
  intro d
  have h := foldl_rsStep_self (k := 0) Config.params_valid
    (rsRemainder_length Config.params_valid d)
  rw [List.replicate_zero, List.append_nil] at h
  rwa [rsRemainder, List.foldl_append]

end Sys2Proof.Machine
end

section
/-! The ErrorCorrectionEncoder (43_error_correction_encoder.md R158 to R162): the stream ECC makes of the
old one, or its fault, and where the redundancy stands in it. -/

namespace Sys2Proof.Machine

/-! ### Bits and bytes of a stream (00_scope.md R8) -/

theorem flatMap_bin8_getElem? (l : List Byte) (j : Nat) {b : Nat} (hb : b < 8) :
    (l.flatMap bin8)[8 * j + b]? = l[j]?.map fun v => v.getMsbD b := by
  induction l generalizing j with
  | nil => rfl
  | cons v l ih =>
    rw [List.flatMap_cons]
    cases j with
    | zero =>
      rw [Nat.mul_zero, Nat.zero_add, List.getElem?_append_left (by rwa [bin8_length]),
        bin8_getElem? v hb]
      rfl
    | succ j =>
      have hindex : 8 * (j + 1) + b = (bin8 v).length + (8 * j + b) := by
        rw [bin8_length]
        omega
      rw [hindex, List.getElem?_append_right (Nat.le_add_right _ _), Nat.add_sub_cancel_left, ih,
        List.getElem?_cons_succ]

theorem bytes_append {u : Bits} (hu : u.length = 8) (w : Bits) :
    bytes (u ++ w) = BitVec.ofNat 8 (val u) :: bytes w := by
  match u, hu with
  | [_, _, _, _, _, _, _, _], _ => rfl

theorem State.slice_add (s : State) (i m n : Nat) :
    s.slice i (m + n) = s.slice i m ++ s.slice (i + m) n := by
  simp only [State.slice, ← List.map_append, List.range'_append_1]

/-- The bytes of a slice are the fields of eight bits in it. -/
theorem State.bytes_slice (s : State) (i k : Nat) : bytes (s.slice i (8 * k)) =
    (List.range k).map fun m => BitVec.ofNat 8 (s.field (i + 8 * m) 8) := by
  induction k generalizing i with
  | zero => rfl
  | succ k ih =>
    rw [Nat.mul_succ, Nat.add_comm (8 * k), State.slice_add, bytes_append (s.slice_length i 8), ih,
      List.range_succ_eq_map, List.map_cons, List.map_map]
    refine congrArg₂ _ rfl (List.map_congr_left fun m _ => ?_)
    rw [Function.comp_apply, Nat.mul_succ, Nat.add_comm (8 * m), Nat.add_assoc]

/-! ### What ECC answers (R158 to R160) -/

/-- The stream ECC makes of the old one, or its fault, in the order of R158. -/
def eccStream (P : Params) (w : Bits) : Except Cause Bits :=
  if P.bsMax < w.length then .error (.bufferOverflow w.length)
  else if w.length % 8 ≠ 0 then .error (.streamMisaligned w.length)
  else protectStream P w

/-- ECC reads nothing but the stream (R162). -/
theorem eccCmd_eq_map (P : Params) (s : State) :
    eccCmd P s = (eccStream P s.stream).map fun w => s.writeStream w := by
  unfold eccCmd eccStream
  rw [State.stream_length]
  split_ifs
  · rfl
  · rfl
  · cases protectStream P s.stream <;> rfl

theorem exec_ecc_of_ok {s : State} {w : Bits} (h : eccStream Config.params s.stream = .ok w) :
    exec .ecc s = .next (s.writeStream w).complete := by
  rw [exec_eq_conclude, commandWrites, eccCmd_eq_map, h, Except.map, conclude_ok]

theorem exec_ecc_of_error {s : State} {c : Cause}
    (h : eccStream Config.params s.stream = .error c) : exec .ecc s = .next (s.raise c) := by
  rw [exec_eq_conclude, commandWrites, eccCmd_eq_map, h, Except.map, conclude_error]

section Checks

variable {P : Params} {w : Bits}

theorem eccStream_of_misaligned (hmax : w.length ≤ P.bsMax) (h : w.length % 8 ≠ 0) :
    eccStream P w = .error (.streamMisaligned w.length) := by
  rw [eccStream, if_neg (Nat.not_lt.2 hmax), if_pos h]

theorem eccStream_of_aligned (hmax : w.length ≤ P.bsMax) (h : w.length % 8 = 0) :
    eccStream P w = protectStream P w := by
  rw [eccStream, if_neg (Nat.not_lt.2 hmax), if_neg (not_not.2 h)]

theorem eccStream_of_too_long (hmax : w.length ≤ P.bsMax) (h : w.length % 8 = 0)
    (hk : 248 < w.length / 8) : eccStream P w = .error (.blockTooLong (w.length / 8)) := by
  rw [eccStream_of_aligned hmax h, protectStream, kMax, if_pos hk]

theorem eccStream_length_lt {e : Bits} (h : eccStream Config.params w = .ok e) :
    e.length < 65536 := by
  have hbs := Config.bsMax_bounds.2
  unfold eccStream at h
  split_ifs at h
  have hle := protectStream_ok_length Config.params_valid h
  omega

end Checks

/-! ### The redundancy in the stream (R158) -/

/-- The state ECC leaves when its checks pass. -/
def State.withRedundancy (s : State) : State :=
  (s.writeStream (protectBits Config.params s.stream)).complete

section Fits

variable {s : State} {k : Nat} (hlen : s.bslen.toNat = 8 * k)
include hlen

theorem exec_ecc_of_fits (hk : k ≤ 248) : exec .ecc s = .next s.withRedundancy := by
  have hbs := Config.bsMax_bounds.1
  rw [exec_eq_conclude, commandWrites, eccCmd_ok (by omega) (by omega) (by omega), conclude_ok,
    State.withRedundancy]

theorem State.withRedundancy_bslen : s.withRedundancy.bslen = BitVec.ofNat 16 (8 * k + 56) := by
  rw [State.withRedundancy, State.complete_bslen, State.writeStream_bslen,
    protectBits_length Config.params_valid, State.stream_length, hlen]

theorem State.bytes_stream : bytes s.stream =
    (List.range k).map fun m => BitVec.ofNat 8 (s.field (8 * m) 8) := by
  simpa only [Nat.zero_add, State.stream, hlen] using State.bytes_slice s 0 k

/-- Bit `b` of redundancy byte `j`. -/
theorem State.readBs_withRedundancy {j b : Nat} (hj : j < 7) (hb : b < 8) :
    s.withRedundancy.readBs (8 * k + 8 * j + b) =
      ((rsRemainder Config.params (bytes s.stream))[j]?.getD 0).getMsbD b := by
  have hbit : (protectBits Config.params s.stream)[8 * k + 8 * j + b]? =
      some (((rsRemainder Config.params (bytes s.stream))[j]?.getD 0).getMsbD b) := by
    have hstart : 8 * k + 8 * j + b = s.stream.length + (8 * j + b) := by
      rw [State.stream_length, hlen, Nat.add_assoc]
    rw [protectBits, hstart, List.getElem?_append_right (Nat.le_add_right _ _),
      Nat.add_sub_cancel_left, flatMap_bin8_getElem? _ _ hb,
      getElem?_eq_some_coeff (by rwa [rsRemainder_length Config.params_valid]), Option.map_some]
    rfl
  exact (State.readBs_writeStream _ s _).trans (by rw [hbit, Option.getD_some])

end Fits

/-! ### The obligations -/

/-- Settles O28: the old stream and the bits beyond are the frame of ECC, the bits between are those of
the redundancy. -/
theorem eccAppendsRedundancy : Obligations.EccAppendsRedundancy := by
  intro s k hlen hk
  have hexec := exec_ecc_of_fits hlen hk
  have hbslen := State.withRedundancy_bslen hlen
  have hnat : s.withRedundancy.bslen.toNat = 8 * k + 56 := by
    rw [hbslen, BitVec.toNat_ofNat]
    omega
  have hframe {j : Nat} := (exec_extends_frame (j := j) (.inr rfl) hexec).1
  refine ⟨_, hexec, ?_, by rw [hnat, hlen], fun j hj => hframe (.inl hj), fun j hj b hb => ?_,
    fun j hj => hframe (.inr (hnat ▸ hj))⟩
  · rw [← hbslen]
    rfl
  · rw [State.readBs_withRedundancy hlen hj hb, State.bytes_stream hlen]

/-- Settles O29, each clause by the check that fails. -/
theorem eccRefusesWhatItCannotProtect : Obligations.EccRefusesWhatItCannotProtect := by
  intro s hmax
  rw [← s.stream_length] at hmax ⊢
  exact ⟨fun h => exec_ecc_of_error (eccStream_of_misaligned hmax h),
    fun h hk => exec_ecc_of_error (eccStream_of_too_long hmax h hk)⟩

/-- Settles O30: from equal streams ECC makes the same new stream or reports the same fault. -/
theorem eccDependsOnTheStreamOnly : Obligations.EccDependsOnTheStreamOnly := by
  intro s s' t t' hbslen hstream ht ht'
  cases h : eccStream Config.params s.stream with
  | error c =>
    rw [exec_ecc_of_error h] at ht
    rw [exec_ecc_of_error (hstream ▸ h)] at ht'
    cases ht
    cases ht'
    exact ⟨rfl, hbslen, hstream⟩
  | ok w =>
    rw [exec_ecc_of_ok h] at ht
    rw [exec_ecc_of_ok (hstream ▸ h)] at ht'
    cases ht
    cases ht'
    have hlen := eccStream_length_lt h
    exact ⟨rfl, rfl,
      (State.stream_writeStream hlen s).trans (State.stream_writeStream hlen s').symm⟩

end Sys2Proof.Machine
end

section
/-! The StreamDecoder (44_stream_decoder.md R172 to R176): the bytes DEC reads, or its fault, are those of
the mode indicator, the count and the payload alone; and a stream that begins with the byte-mode stream
of a string gives the string back, so FIN and ECC, which extend it, change nothing for DEC. -/

namespace Sys2Proof.Machine

/-! ### What DEC answers (R172 to R174) -/

/-- The bytes DEC reads, or its fault, in the order of R172. -/
def State.decodedBytes (P : Params) (s : State) : Except Cause (List Byte) :=
  if P.bsMax < s.bslen.toNat then .error (.bufferOverflow s.bslen.toNat)
  else if s.bslen.toNat < 4 then .error (.streamTruncated s.bslen.toNat)
  else if s.field 0 4 ≠ P.modeByte.toNat then .error (.formatMismatch (s.field 0 4))
  else if s.bslen.toNat < 12 then .error (.streamTruncated s.bslen.toNat)
  else if s.bslen.toNat < 12 + 8 * s.field 4 8 then .error (.streamTruncated s.bslen.toNat)
  else .ok (s.payload (s.field 4 8))

/-- DEC writes nothing but the bytes it reads. -/
theorem decCmd_eq_map (P : Params) (s : State) :
    decCmd P s = (s.decodedBytes P).map fun c => s.replaceOut c := by
  unfold decCmd State.decodedBytes
  split_ifs <;> rfl

theorem exec_dec_of_ok {s : State} {c : List Byte} (h : s.decodedBytes Config.params = .ok c) :
    exec .dec s = .next (s.replaceOut c).complete := by
  rw [exec_eq_conclude, commandWrites, decCmd_eq_map, h, Except.map, conclude_ok]

theorem exec_dec_of_error {s : State} {c : Cause} (h : s.decodedBytes Config.params = .error c) :
    exec .dec s = .next (s.raise c) := by
  rw [exec_eq_conclude, commandWrites, decCmd_eq_map, h, Except.map, conclude_error]

section Checks

variable {P : Params} {s : State} (hmax : s.bslen.toNat ≤ P.bsMax)
include hmax

theorem decodedBytes_of_lt_four (h : s.bslen.toNat < 4) :
    s.decodedBytes P = .error (.streamTruncated s.bslen.toNat) := by
  rw [State.decodedBytes, if_neg (Nat.not_lt.2 hmax), if_pos h]

theorem decodedBytes_of_mode_ne (h : 4 ≤ s.bslen.toNat) (hmode : s.field 0 4 ≠ P.modeByte.toNat) :
    s.decodedBytes P = .error (.formatMismatch (s.field 0 4)) := by
  rw [State.decodedBytes, if_neg (Nat.not_lt.2 hmax), if_neg (Nat.not_lt.2 h), if_pos hmode]

/-- With the right mode indicator every stream that ends before its payload does is truncated,
whichever field it ends in. -/
theorem decodedBytes_of_truncated (hmode : s.field 0 4 = P.modeByte.toNat)
    (h : s.bslen.toNat < 12 + 8 * s.field 4 8) :
    s.decodedBytes P = .error (.streamTruncated s.bslen.toNat) := by
  rw [State.decodedBytes, if_neg (Nat.not_lt.2 hmax), if_neg (not_not.2 hmode), if_pos h, ite_self,
    ite_self]

theorem decodedBytes_of_fits (hmode : s.field 0 4 = P.modeByte.toNat)
    (h : 12 + 8 * s.field 4 8 ≤ s.bslen.toNat) :
    s.decodedBytes P = .ok (s.payload (s.field 4 8)) := by
  rw [State.decodedBytes, if_neg (Nat.not_lt.2 hmax), if_neg (by omega), if_neg (not_not.2 hmode),
    if_neg (by omega), if_neg (Nat.not_lt.2 h)]

end Checks

theorem State.payload_getElem? (s : State) {n i : Nat} (hi : i < n) :
    (s.payload n)[i]? = some (BitVec.ofNat 8 (s.field (12 + 8 * i) 8)) := by
  simp [State.payload, hi]

/-- OUT below OUTLEN after DEC. -/
theorem State.readOut_decoded {l : List Byte} {i : Nat} {b : Byte} (h : l[i]? = some b)
    (s : State) : (s.replaceOut l).complete.readOut i = b :=
  (State.readOut_replaceOut l s i).trans (by rw [h, Option.getD_some])

theorem State.outlen_decoded_toNat {l : List Byte} (h : l.length ≤ 255) (s : State) :
    (s.replaceOut l).complete.outlen.toNat = l.length :=
  Nat.mod_eq_of_lt (Nat.lt_succ_of_le h)

/-! ### The bits DEC reads (R176 (b)) -/

section Agreement

variable {s s' : State} {m : Nat} (h : ∀ j < m, s.readBs j = s'.readBs j)
include h

theorem State.field_congr {i n : Nat} (hm : i + n ≤ m) : s.field i n = s'.field i n := by
  refine congrArg val (List.map_congr_left fun j hj => h j ?_)
  have := List.mem_range'_1.1 hj
  omega

theorem State.payload_congr {n : Nat} (hm : 12 + 8 * n ≤ m) : s.payload n = s'.payload n := by
  refine List.map_congr_left fun i hi => congrArg _ (State.field_congr h ?_)
  have := List.mem_range.1 hi
  omega

end Agreement

theorem decodedBytes_congr {P : Params} {s s' : State} (hbslen : s.bslen = s'.bslen)
    (h : ∀ j < 12 + 8 * s.field 4 8, s.readBs j = s'.readBs j) :
    s.decodedBytes P = s'.decodedBytes P := by
  unfold State.decodedBytes
  rw [← State.field_congr h (i := 0) (n := 4) (by omega),
    ← State.field_congr h (i := 4) (n := 8) (by omega),
    ← State.payload_congr h (Nat.le_refl _), hbslen]

/-! ### A stream that begins with an encoded string (R135, R176 (a)) -/

theorem State.Admitted.dec_returns_input {s u : State} (ha : s.Admitted)
    (h : s.encoding <+: u.stream) (hmax : u.bslen.toNat ≤ Config.params.bsMax) :
    ∃ d, exec .dec u = .next d ∧ d.status = 0b010 ∧ d.outlen.toNat = s.len.toNat ∧
      ∀ i < s.len.toNat, (d.readOut i).toNat = (s.readIn i).toNat := by
  obtain ⟨hlen, hbyte⟩ := ha
  rw [← State.inputBytes_length] at hlen
  refine ⟨_, exec_dec_of_prefix h hlen hmax, rfl,
    (State.outlen_decoded_toNat hlen u).trans s.inputBytes_length, fun i hi => ?_⟩
  have := hbyte i hi
  rw [State.readOut_decoded (State.inputBytes_getElem? hi), BitVec.toNat_ofNat]
  omega

/-- FIN and ECC leave a stream that fits BS. -/
theorem commandWrites_bslen_le {i : Instr} (hi : i = .fin ∨ i = .ecc) {s u : State}
    (h : commandWrites Config.params s i = .ok u) : u.bslen.toNat ≤ Config.params.bsMax := by
  rcases hi with rfl | rfl
  · obtain ⟨-, -, w, hw, rfl⟩ := finCmd_inv h
    exact (Nat.mod_le _ _).trans (finishStream_ok_length hw)
  · obtain ⟨-, -, w, hw, rfl⟩ := eccCmd_inv h
    exact (Nat.mod_le _ _).trans (protectStream_ok_length Config.params_valid hw)

/-- FIN and ECC, when they complete, leave a stream that begins with the old one and fits BS. -/
theorem exec_extends_stream {i : Instr} (hi : i = .fin ∨ i = .ecc) {s t : State}
    (h : exec i s = .next t) (hdone : t.status = 0b010) :
    s.stream <+: t.stream ∧ t.bslen.toNat ≤ Config.params.bsMax := by
  obtain ⟨u, hu, rfl⟩ := exec_done h hdone
  have hmax : u.bslen.toNat ≤ Config.params.bsMax := commandWrites_bslen_le hi hu
  refine ⟨?_, hmax⟩
  obtain ⟨w, hpre, hlen, rfl⟩ := commandWrites_extends hi hu
  have hstream : (s.writeStream w).complete.stream = w := State.stream_writeStream hlen s
  rwa [hstream]

/-! ### The obligations -/

/-- Settles O19: FIN and ECC extend the stream of ENC, so it still begins with the encoded string. -/
theorem decodeIgnoresWhatFollowsThePayload : Obligations.DecodeIgnoresWhatFollowsThePayload := by
  intro s t u v T ha henc hfin hdone
  rw [ha.exec_enc] at henc
  cases henc
  obtain ⟨hext, hmax⟩ := exec_extends_stream (.inl rfl) hfin hdone
  have hpre : s.encoding <+: u.stream := ha.prefix_enc.trans hext
  refine ⟨ha.dec_returns_input hpre hmax, fun hecc hdone' => ?_⟩
  obtain ⟨hext', hmax'⟩ := exec_extends_stream (.inr rfl) hecc hdone'
  exact ha.dec_returns_input (hpre.trans hext') hmax'

/-- Settles O31: with every check passed, OUT holds the payload, whose bytes are fields of 8 bits. -/
theorem decReadsThePayload : Obligations.DecReadsThePayload := by
  rintro s N hmax hmode rfl hfits
  have hcount := s.field_lt 4 8
  have hlen := s.payload_length (s.field 4 8)
  refine ⟨_, exec_dec_of_ok (decodedBytes_of_fits hmax hmode hfits), ?frame,
    (State.outlen_decoded_toNat (by omega) s).trans hlen, fun i hi => ?character⟩
  case frame =>
    have houtlen : (s.replaceOut (s.payload (s.field 4 8))).complete.outlen =
        BitVec.ofNat 8 (s.field 4 8) := congrArg (BitVec.ofNat 8) hlen
    rw [← houtlen]
    rfl
  case character =>
    rw [State.readOut_decoded (s.payload_getElem? hi), BitVec.toNat_ofNat,
      Nat.mod_eq_of_lt (s.field_lt _ 8)]

/-- Settles O32, each clause by the check that fails. -/
theorem decRefusesWhatItCannotRead : Obligations.DecRefusesWhatItCannotRead := fun _ hmax =>
  ⟨fun h => exec_dec_of_error (decodedBytes_of_lt_four hmax h),
    fun h hmode => exec_dec_of_error (decodedBytes_of_mode_ne hmax h hmode),
    fun _ hmode h => exec_dec_of_error (decodedBytes_of_truncated hmax hmode (by omega)),
    fun _ hmode h => exec_dec_of_error (decodedBytes_of_truncated hmax hmode h)⟩

/-- Settles O33: the bytes DEC reads, or its fault, are the same in both states, and OUT holds those
bytes below OUTLEN. -/
theorem decDependsOnWhatItReads : Obligations.DecDependsOnWhatItReads := by
  intro s s' t t' hbslen hbits ht ht'
  have heq := decodedBytes_congr (P := Config.params) hbslen hbits
  cases h : s.decodedBytes Config.params with
  | error c =>
    rw [exec_dec_of_error h] at ht
    rw [exec_dec_of_error (heq ▸ h)] at ht'
    cases ht
    cases ht'
    exact ⟨rfl, fun hdone => absurd hdone (by rw [State.raise_status]; decide)⟩
  | ok l =>
    rw [exec_dec_of_ok h] at ht
    rw [exec_dec_of_ok (heq ▸ h)] at ht'
    cases ht
    cases ht'
    refine ⟨rfl, fun _ => ⟨rfl, fun i hi => ?_⟩⟩
    have hlt : i < l.length := Nat.lt_of_lt_of_le hi (Nat.mod_le _ _)
    have hbyte := List.getElem?_eq_getElem hlt
    exact (State.readOut_decoded hbyte s).trans (State.readOut_decoded hbyte s').symm

end Sys2Proof.Machine
end

section
/-! The drawing of a list of modules, whatever the command (45_pattern_renderer.md R181 to R186,
R191). A module is one block of pixels: it fits the grid when its first and last pixel do, and its
writes colour the pixels whose module it is. From there on modules take the place of pixel writes. -/

namespace Sys2Proof.Machine

/-! ### Which modules fit the grid (R186) -/

/-- Modules `lo` to `hi` of one axis lie on a grid of `w` pixels along that axis (R181, R186). -/
def AxisFits (S B w : Nat) (lo hi : Int) : Prop :=
  0 ≤ (B : Int) + lo ∧ ((B : Int) + hi + 1) * S ≤ w

/-- The block of a module lies on a grid of `w` by `h` pixels. -/
def DrawnModule.Fits (S B w h : Nat) (m : DrawnModule) : Prop :=
  AxisFits S B w m.mx m.mx ∧ AxisFits S B h m.my m.my

theorem axisFits_mono {S B w : Nat} {lo lo' hi hi' : Int} (h : AxisFits S B w lo hi)
    (hlo : lo ≤ lo') (hhi : hi' ≤ hi) : AxisFits S B w lo' hi' := by
  obtain ⟨hfirst, hlast⟩ := h
  exact ⟨by omega, le_trans (Int.mul_le_mul_of_nonneg_right (by omega) (by omega)) hlast⟩

/-- The pixels of a module lie on an axis exactly when the module does. -/
theorem axisFits_iff_pixels {S B w : Nat} (hS : S ≠ 0) (c : Int) : AxisFits S B w c c ↔
    ∀ d < S, 0 ≤ ((B : Int) + c) * S + (d : Nat) ∧ ((B : Int) + c) * S + (d : Nat) < w := by
  have hSpos : 0 < S := Nat.pos_of_ne_zero hS
  unfold AxisFits
  rw [add_mul ((B : Int) + c) 1]
  constructor
  · rintro ⟨hfirst, hlast⟩ d hd
    have := mul_nonneg hfirst (Int.natCast_nonneg S)
    omega
  · intro h
    refine ⟨nonneg_of_mul_nonneg_left (b := (S : Int)) ?_ (by omega), ?_⟩
    · have := (h 0 hSpos).1
      omega
    · have := (h (S - 1) (by omega)).2
      omega

theorem setModule_inside_iff {P : Params} {S B w h : Nat} (hS : S ≠ 0) (m : DrawnModule) :
    (∀ p ∈ setModule P S B m, p.inside w h = true) ↔ m.Fits S B w h := by
  have hSpos : 0 < S := Nat.pos_of_ne_zero hS
  simp only [mem_setModule, PixWrite.inside_iff, DrawnModule.Fits, axisFits_iff_pixels hS]
  constructor
  · intro hin
    exact ⟨fun d hd => (hin _ ⟨0, hSpos, d, hd, rfl⟩).1,
      fun d hd => (hin _ ⟨d, hd, 0, hSpos, rfl⟩).2⟩
  · rintro ⟨hx, hy⟩ p ⟨dy, hdy, dx, hdx, rfl⟩
    exact ⟨hx dx hdx, hy dy hdy⟩

/-- The bounds check of a write list is one of its modules. -/
theorem writeList_inside_iff {P : Params} {S B w h : Nat} (hS : S ≠ 0) (ms : List DrawnModule) :
    (writeList P S B ms).all (PixWrite.inside w h) = true ↔ ∀ m ∈ ms, m.Fits S B w h := by
  simp only [writeList, List.all_flatMap, List.all_eq_true, setModule_inside_iff hS]

/-- The modules of a list span the columns `x0` to `x1` and the rows `y0` to `y1`. -/
structure Spans (ms : List DrawnModule) (x0 x1 y0 y1 : Int) : Prop where
  within : ∀ m ∈ ms, (x0 ≤ m.mx ∧ m.mx ≤ x1) ∧ y0 ≤ m.my ∧ m.my ≤ y1
  left : ∃ m ∈ ms, m.mx = x0
  right : ∃ m ∈ ms, m.mx = x1
  top : ∃ m ∈ ms, m.my = y0
  bottom : ∃ m ∈ ms, m.my = y1

/-- A list of modules fits exactly when the rectangle it spans does. -/
theorem Spans.fits_iff {ms : List DrawnModule} {x0 x1 y0 y1 : Int} (hms : Spans ms x0 x1 y0 y1)
    {S B w h : Nat} :
    (∀ m ∈ ms, m.Fits S B w h) ↔ AxisFits S B w x0 x1 ∧ AxisFits S B h y0 y1 := by
  constructor
  · intro hfit
    obtain ⟨l, hl, rfl⟩ := hms.left
    obtain ⟨r, hr, rfl⟩ := hms.right
    obtain ⟨t, ht, rfl⟩ := hms.top
    obtain ⟨b, hb, rfl⟩ := hms.bottom
    exact ⟨⟨(hfit l hl).1.1, (hfit r hr).1.2⟩, ⟨(hfit t ht).2.1, (hfit b hb).2.2⟩⟩
  · rintro ⟨hx, hy⟩ m hm
    obtain ⟨⟨hl, hr⟩, ht, hb⟩ := hms.within m hm
    exact ⟨axisFits_mono hx hl hr, axisFits_mono hy ht hb⟩

/-! ### What a list of modules leaves (R185, R191) -/

/-- A pixel is one of a module's `S` along an axis when its quotient by `S` is the module. -/
theorem exists_pixel_iff {S : Nat} (hS : S ≠ 0) {k : Int} (hk : 0 ≤ k) (p : Nat) :
    (∃ d < S, (k * S + (d : Nat)).toNat = p) ↔ k = (p / S : Nat) := by
  lift k to Nat using hk
  have hpos : 0 < S := Nat.pos_of_ne_zero hS
  have hcast (d : Nat) : ((k : Int) * S + (d : Nat)).toNat = k * S + d := by
    rw [← Nat.cast_mul, ← Nat.cast_add, Int.toNat_natCast]
  simp only [hcast, Nat.cast_inj]
  constructor
  · rintro ⟨d, hd, rfl⟩
    rw [Nat.mul_comm, Nat.mul_add_div hpos, Nat.div_eq_of_lt hd, Nat.add_zero]
  · rintro rfl
    exact ⟨p % S, Nat.mod_lt p hpos, Nat.div_add_mod' p S⟩

/-- Pixel `(px, py)` lies in the block of the module (R191). -/
abbrev DrawnModule.Covers (S B px py : Nat) (m : DrawnModule) : Prop :=
  (B : Int) + m.mx = (px / S : Nat) ∧ (B : Int) + m.my = (py / S : Nat)

theorem exists_write_iff_covers {P : Params} {S B w h : Nat} (hS : S ≠ 0) {m : DrawnModule}
    (hfit : m.Fits S B w h) (px py : Nat) :
    (∃ p ∈ setModule P S B m, p.x.toNat = px ∧ p.y.toNat = py) ↔ m.Covers S B px py := by
  rw [DrawnModule.Covers, ← exists_pixel_iff hS hfit.1.1, ← exists_pixel_iff hS hfit.2.1]
  simp only [mem_setModule]
  constructor
  · rintro ⟨p, ⟨dy, hdy, dx, hdx, rfl⟩, hx, hy⟩
    exact ⟨⟨dx, hdx, hx⟩, dy, hdy, hy⟩
  · rintro ⟨⟨dx, hdx, hx⟩, dy, hdy, hy⟩
    exact ⟨_, ⟨dy, hdy, dx, hdx, rfl⟩, hx, hy⟩

theorem bit_of_mem_setModule {S B : Nat} {m : DrawnModule} {p : PixWrite}
    (hp : p ∈ setModule Config.params S B m) : p.bit = colourBit m.dark := by
  obtain ⟨dy, -, dx, -, rfl⟩ := mem_setModule.1 hp
  rfl

/-- Drawing one module colours its block and nothing else (R181, R191). -/
theorem Grid.get_perform_setModule {S B w h : Nat} (hS : S ≠ 0) (hw : w ≤ 2 ^ 32) {m : DrawnModule}
    (hfit : m.Fits S B w h) (g : Grid) {px : Nat} (hpx : px < 2 ^ 32) (py : Nat) :
    (g.perform (setModule Config.params S B m)).get px py =
      if m.Covers S B px py then colourBit m.dark else g.get px py := by
  have hcoords : ∀ p ∈ setModule Config.params S B m, p.x.toNat < 2 ^ 32 := fun p hp => by
    have hin := PixWrite.inside_iff.1 ((setModule_inside_iff hS m).2 hfit p hp)
    omega
  have hwrite := exists_write_iff_covers (P := Config.params) hS hfit px py
  rw [Grid.get_perform g _ hcoords hpx]
  cases hlast : (setModule Config.params S B m).reverse.find? fun p =>
      decide (p.x.toNat = px) && decide (p.y.toNat = py) with
  | some p =>
    have hp : p ∈ setModule Config.params S B m :=
      List.mem_reverse.1 (List.mem_of_find?_eq_some hlast)
    have hhit : p.x.toNat = px ∧ p.y.toNat = py := by simpa using List.find?_some hlast
    rw [if_pos (hwrite.1 ⟨p, hp, hhit⟩)]
    exact bit_of_mem_setModule hp
  | none =>
    rw [if_neg fun hc => ?_]
    · rfl
    · obtain ⟨p, hp, hhit⟩ := hwrite.2 hc
      exact List.find?_eq_none.1 hlast p (List.mem_reverse.2 hp) (by simpa using hhit)

/-- The first module of a list is painted over by the rest. -/
theorem paintedPixel_cons (m : DrawnModule) (ms : List DrawnModule) (S B px py : Nat) (old : Bool) :
    paintedPixel (m :: ms) S B px py old =
      paintedPixel ms S B px py (if m.Covers S B px py then colourBit m.dark else old) := by
  simp only [paintedPixel, pixelColour, List.reverse_cons, List.find?_append, List.find?_singleton,
    ← Bool.decide_and, decide_eq_true_eq]
  cases ms.reverse.find? fun u => decide (u.Covers S B px py) with
  | some u => rfl
  | none =>
    by_cases hc : m.Covers S B px py
    · rw [if_pos hc, if_pos hc]
      rfl
    · rw [if_neg hc, if_neg hc]
      rfl

/-- A list of modules that fits leaves the picture `paintedPixel` describes (R185, R191). -/
theorem Grid.get_perform_writeList {S B w h : Nat} (hS : S ≠ 0) (hw : w ≤ 2 ^ 32)
    {ms : List DrawnModule} (hfit : ∀ m ∈ ms, m.Fits S B w h) (g : Grid) {px : Nat}
    (hpx : px < 2 ^ 32) (py : Nat) :
    (g.perform (writeList Config.params S B ms)).get px py =
      paintedPixel ms S B px py (g.get px py) := by
  induction ms generalizing g with
  | nil => rfl
  | cons m ms ih =>
    obtain ⟨hm, hms⟩ := List.forall_mem_cons.1 hfit
    rw [writeList, List.flatMap_cons, Grid.perform_append, ← writeList, ih hms,
      Grid.get_perform_setModule hS hw hm g hpx, paintedPixel_cons]

/-- A function that gives every module of the list its colour, and no colour to any other module, is
the picture: no module of such a list is painted over in another colour. -/
theorem paintedPixel_of_colours {ms : List DrawnModule} {f : Int → Int → Option Bool}
    (hf : ∀ m, m ∈ ms ↔ f m.mx m.my = some m.dark) (S B px py : Nat) (old : Bool) :
    paintedPixel ms S B px py old =
      ((f ((px / S : Nat) - (B : Int)) ((py / S : Nat) - (B : Int))).map colourBit).getD old := by
  have hcovers {m : DrawnModule} (hc : m.Covers S B px py) :
      m.mx = (px / S : Nat) - (B : Int) ∧ m.my = (py / S : Nat) - (B : Int) := by
    obtain ⟨hx, hy⟩ := hc
    omega
  simp only [paintedPixel, pixelColour, ← Bool.decide_and]
  cases hlast : ms.reverse.find? fun m => decide (m.Covers S B px py) with
  | some m =>
    obtain ⟨hx, hy⟩ := hcovers (by simpa only [decide_eq_true_eq] using List.find?_some hlast)
    have hm := (hf m).1 (List.mem_reverse.1 (List.mem_of_find?_eq_some hlast))
    rw [← hx, ← hy, hm]
    rfl
  | none =>
    cases hcol : f ((px / S : Nat) - (B : Int)) ((py / S : Nat) - (B : Int)) with
    | none => rfl
    | some c =>
      have hm := (hf ⟨_, _, c⟩).2 hcol
      exact absurd (by simp) (List.find?_eq_none.1 hlast _ (List.mem_reverse.2 hm))

end Sys2Proof.Machine
end

section
/-! The commands DRF, DRA and DRT by the modules they draw (45_pattern_renderer.md R184 to R186,
R190, R196, R201, R204): the same checks, the same writes, another list. -/

namespace Sys2Proof.Machine

/-! ### The parameter checks (R184) -/

theorem checkParams_of_bad_version {s : State} (h : s.version.toNat = 0 ∨ 8 < s.version.toNat) :
    checkParams s = .error (.badParameter 7) :=
  if_pos (by omega)

theorem checkParams_of_bad_scale {s : State} (h1 : 1 ≤ s.version.toNat) (h8 : s.version.toNat ≤ 8)
    (hS : s.scale.toNat = 0) : checkParams s = .error (.badParameter 9) := by
  rw [checkParams, if_neg (by omega), if_pos hS]

theorem State.Drawable.scale_ne_zero {s : State} (h : s.Drawable) : s.scale.toNat ≠ 0 := h.2.2

theorem State.Drawable.version_mem {s : State} (h : s.Drawable) : s.version.toNat ∈ versions :=
  mem_versions.2 ⟨h.1, h.2.1⟩

theorem checkParams_ok_iff {s : State} {n : Nat} :
    checkParams s = .ok n ↔ s.Drawable ∧ n = s.side := by
  rcases checkParams_cases s with ⟨hv, hc⟩ | ⟨-, hS, hc⟩ | ⟨hv, hS, hc⟩ <;> rw [hc]
  · exact iff_of_false nofun fun ⟨⟨h1, h8, _⟩, _⟩ => by omega
  · exact iff_of_false nofun fun ⟨h, _⟩ => h.scale_ne_zero hS
  · obtain ⟨h1, h8⟩ := mem_versions.1 hv
    simp [State.Drawable, State.side, h1, h8, hS, eq_comm]

theorem drawCmd_of_checkParams_error {P : Params} {s : State} {c : Cause}
    (h : checkParams s = .error c) (ms : Nat → List DrawnModule) : drawCmd P s ms = .error c := by
  rw [drawCmd, drawnWrites, h]

theorem asmCmd_of_checkParams_error {P : Params} {s : State} {c : Cause}
    (h : checkParams s = .error c) : asmCmd P s = .error c := by
  rw [asmCmd, assembledWrites, h]

/-- All four drawing commands begin with the same checks. -/
theorem exec_of_checkParams_error {i : Instr} (hi : i ∈ [Instr.drf, .dra, .drt, .asm]) {s : State}
    {c : Cause} (h : checkParams s = .error c) : exec i s = .next (s.raise c) := by
  have hwrites : commandWrites Config.params s i = .error c := by
    simp only [List.mem_cons, List.not_mem_nil, or_false] at hi
    rcases hi with rfl | rfl | rfl | rfl
    · exact drawCmd_of_checkParams_error h _
    · exact drawCmd_of_checkParams_error h _
    · exact drawCmd_of_checkParams_error h _
    · exact asmCmd_of_checkParams_error h
  rw [exec_eq_conclude, hwrites, conclude_error]

/-- Settles O40: the checks come first, VERSION before SCALE. -/
theorem badParameterRaised : Obligations.BadParameterRaised := fun _ _ hi =>
  ⟨fun hv => exec_of_checkParams_error hi (checkParams_of_bad_version hv),
    fun h1 h8 hS => exec_of_checkParams_error hi (checkParams_of_bad_scale h1 h8 hS)⟩

/-! ### The three commands are one drawing each -/

/-- The modules of DRF, DRA and DRT for a matrix of side `n`; no other command is one of them. -/
def patternModules (P : Params) (version : Nat) : Instr → Nat → List DrawnModule
  | .drf => finderModules
  | .dra => alignModules P version
  | .drt => timingModules
  | _ => fun _ => []

/-- The modules a command draws with the registers of `s`. -/
def State.modules (s : State) (i : Instr) : List DrawnModule :=
  patternModules Config.params s.version.toNat i s.side

/-- The write list of a command with the registers of `s`. -/
def State.writes (s : State) (i : Instr) : List PixWrite :=
  writeList Config.params s.scale.toNat s.border.toNat (s.modules i)

/-- Every module of the command fits the attached grid (R186). -/
def State.FitsGrid (s : State) (i : Instr) : Prop :=
  ∀ m ∈ s.modules i, m.Fits s.scale.toNat s.border.toNat s.gridW.toNat s.gridH.toNat

/-- The state a drawing command leaves when its checks pass. -/
def State.drawn (s : State) (i : Instr) : State :=
  State.complete { s with pix := s.pix.perform (s.writes i) }

section Bounds

variable (P : Params) {s : State} {ms : Nat → List DrawnModule} (hs : s.Drawable)
include hs

theorem drawnWrites_of_fits (hfit : ∀ m ∈ ms s.side,
      m.Fits s.scale.toNat s.border.toNat s.gridW.toNat s.gridH.toNat) :
    drawnWrites P s ms = .ok (writeList P s.scale.toNat s.border.toNat (ms s.side)) := by
  rw [drawnWrites, checkParams_ok_iff.2 ⟨hs, rfl⟩]
  exact if_pos ((writeList_inside_iff hs.scale_ne_zero _).2 hfit)

theorem drawnWrites_of_not_fits (hfit : ¬ ∀ m ∈ ms s.side,
      m.Fits s.scale.toNat s.border.toNat s.gridW.toNat s.gridH.toNat) :
    drawnWrites P s ms = .error .gridBoundsViolation := by
  rw [drawnWrites, checkParams_ok_iff.2 ⟨hs, rfl⟩]
  exact if_neg (mt (writeList_inside_iff hs.scale_ne_zero _).1 hfit)

end Bounds

section Drawing

variable {i : Instr} (hi : i ∈ [Instr.drf, .dra, .drt])
include hi

theorem commandWrites_draw (P : Params) (s : State) :
    commandWrites P s i = drawCmd P s (patternModules P s.version.toNat i) := by
  simp only [List.mem_cons, List.not_mem_nil, or_false] at hi
  rcases hi with rfl | rfl | rfl <;> rfl

theorem exec_draw_of_fits {s : State} (hs : s.Drawable) (hfit : s.FitsGrid i) :
    exec i s = .next (s.drawn i) := by
  rw [exec_eq_conclude, commandWrites_draw hi, drawCmd, drawnWrites_of_fits _ hs hfit]
  rfl

theorem exec_draw_of_not_fits {s : State} (hs : s.Drawable) (hfit : ¬ s.FitsGrid i) :
    exec i s = .next (s.raise .gridBoundsViolation) := by
  rw [exec_eq_conclude, commandWrites_draw hi, drawCmd, drawnWrites_of_not_fits _ hs hfit]
  rfl

/-- What a drawing command does: it draws its modules, or reports a fault the registers alone
decide, so that it reports it again. -/
theorem exec_draw_cases (s : State) :
    (s.Drawable ∧ s.FitsGrid i ∧ exec i s = .next (s.drawn i)) ∨
    ∃ c, exec i s = .next (s.raise c) ∧ exec i (s.raise c) = .next ((s.raise c).raise c) := by
  cases hc : checkParams s with
  | error c =>
    have hi' : i ∈ [Instr.drf, .dra, .drt, .asm] := List.mem_append_left [Instr.asm] hi
    exact .inr ⟨c, exec_of_checkParams_error hi' hc, exec_of_checkParams_error hi' hc⟩
  | ok n =>
    obtain ⟨hs, rfl⟩ := checkParams_ok_iff.1 hc
    by_cases hfit : s.FitsGrid i
    · exact .inl ⟨hs, hfit, exec_draw_of_fits hi hs hfit⟩
    · exact .inr ⟨_, exec_draw_of_not_fits hi hs hfit, exec_draw_of_not_fits hi hs hfit⟩

theorem exec_draw_done {s t : State} (h : exec i s = .next t) (hdone : t.status = 0b010) :
    s.Drawable ∧ s.FitsGrid i ∧ t = s.drawn i := by
  rcases exec_draw_cases hi s with ⟨hs, hfit, he⟩ | ⟨c, he, -⟩ <;> rw [he] at h <;> cases h
  · exact ⟨hs, hfit, rfl⟩
  · exact absurd hdone (by rw [State.raise_status]; decide)

end Drawing

/-- The picture a drawing command leaves (R191). -/
theorem State.get_drawn {s : State} {i : Instr} (hs : s.Drawable) (hfit : s.FitsGrid i) {px : Nat}
    (hpx : px < 2 ^ 32) (py : Nat) : (s.drawn i).pix.get px py =
      paintedPixel (s.modules i) s.scale.toNat s.border.toNat px py (s.pix.get px py) :=
  Grid.get_perform_writeList hs.scale_ne_zero s.gridW.isLt.le hfit s.pix hpx py

theorem paintedPixel_idem (ms : List DrawnModule) (S B px py : Nat) (old : Bool) :
    paintedPixel ms S B px py (paintedPixel ms S B px py old) = paintedPixel ms S B px py old := by
  unfold paintedPixel
  cases pixelColour ms S B px py <;> rfl

/-- Settles O44: the modules of each command are its list. -/
theorem drawingPaintsItsModulesOnly : Obligations.DrawingPaintsItsModulesOnly := by
  intro s t px py hdone hpx
  have hpaint {i : Instr} (hi : i ∈ [Instr.drf, .dra, .drt]) (h : exec i s = .next t) :
      t.pix.get px py =
        paintedPixel (s.modules i) s.scale.toNat s.border.toNat px py (s.pix.get px py) := by
    obtain ⟨hs, hfit, rfl⟩ := exec_draw_done hi h hdone
    exact State.get_drawn hs hfit hpx py
  exact ⟨hpaint (by decide), hpaint (by decide), hpaint (by decide)⟩

/-- Settles O45: the second drawing has the registers of the first, so it ends as the first did and
paints what it painted. -/
theorem redrawingChangesNothing : Obligations.RedrawingChangesNothing := by
  intro s t i hi h
  rcases exec_draw_cases hi s with ⟨hs, hfit, he⟩ | ⟨c, he, hagain⟩ <;> rw [he] at h <;> cases h
  · refine ⟨_, exec_draw_of_fits hi (s := s.drawn i) hs hfit, rfl, fun px py hpx => ?_⟩
    calc ((s.drawn i).drawn i).pix.get px py
        = paintedPixel (s.modules i) s.scale.toNat s.border.toNat px py
            ((s.drawn i).pix.get px py) := State.get_drawn (s := s.drawn i) hs hfit hpx py
      _ = (s.drawn i).pix.get px py := by rw [State.get_drawn hs hfit hpx py, paintedPixel_idem]
  · exact ⟨_, hagain, rfl, fun _ _ _ => rfl⟩

end Sys2Proof.Machine
end

section
/-! The finder patterns and the timing lines (45_pattern_renderer.md R187, R188, R190, R198, R199,
R201): the modules of each list, the colour each place of the matrix has in it, and the rectangle it
spans. -/

namespace Sys2Proof.Machine

/-- Settles O37, by evaluation. -/
theorem patternTruthTables : Obligations.PatternTruthTables := ⟨by decide, by decide⟩

/-! ### The finders -/

theorem mem_finderAt {ox oy : Int} {m : DrawnModule} : m ∈ finderAt ox oy ↔
    ∃ x y : Nat, x < 7 ∧ y < 7 ∧ m = ⟨ox + x, oy + y, finderDark x y⟩ := by
  simp only [finderAt, List.mem_flatMap, List.mem_map, List.mem_range]
  constructor
  · rintro ⟨y, hy, x, hx, rfl⟩
    exact ⟨x, y, hx, hy, rfl⟩
  · rintro ⟨x, y, hx, hy, rfl⟩
    exact ⟨y, hy, x, hx, rfl⟩

theorem find?_cons_decide {α : Type} (p : α → Prop) [DecidablePred p] (a : α) (l : List α) :
    (a :: l).find? (fun x => decide (p x)) =
      if p a then some a else l.find? fun x => decide (p x) := by
  by_cases h : p a <;> simp [h]

/-- The offset in a finder block: the three blocks are disjoint, so their order does not matter. -/
theorem finderOffset_eq_some_iff {n : Nat} (hn : 21 ≤ n) {mx my : Int} {x y : Nat} :
    finderOffset n mx my = some (x, y) ↔ x < 7 ∧ y < 7 ∧
      ((mx = x ∧ my = y) ∨ (mx = x ∧ my = (n : Int) - 7 + y) ∨
        (mx = (n : Int) - 7 + x ∧ my = y)) := by
  simp only [finderOffset, ← Bool.decide_and, find?_cons_decide, List.find?_nil]
  split_ifs with htopLeft hbottomLeft htopRight <;>
    simp only [Option.map_some, Option.map_none, Option.some.injEq, Prod.mk.injEq, reduceCtorEq,
      false_iff] <;> omega

/-- The colour of a place of the matrix in the finders. -/
def finderColour (n : Nat) (mx my : Int) : Option Bool :=
  (finderOffset n mx my).map fun o => finderDark o.1 o.2

theorem mem_finderModules {n : Nat} (hn : 21 ≤ n) (m : DrawnModule) :
    m ∈ finderModules n ↔ finderColour n m.mx m.my = some m.dark := by
  obtain ⟨mx, my, dark⟩ := m
  simp only [finderModules, List.mem_append, mem_finderAt, finderColour, Option.map_eq_some_iff,
    Prod.exists, finderOffset_eq_some_iff hn, DrawnModule.mk.injEq, zero_add]
  constructor
  · rintro ((⟨x, y, hx, hy, hmx, hmy, rfl⟩ | ⟨x, y, hx, hy, hmx, hmy, rfl⟩) |
      ⟨x, y, hx, hy, hmx, hmy, rfl⟩)
    · exact ⟨x, y, ⟨hx, hy, .inl ⟨hmx, hmy⟩⟩, rfl⟩
    · exact ⟨x, y, ⟨hx, hy, .inr (.inl ⟨hmx, hmy⟩)⟩, rfl⟩
    · exact ⟨x, y, ⟨hx, hy, .inr (.inr ⟨hmx, hmy⟩)⟩, rfl⟩
  · rintro ⟨x, y, ⟨hx, hy, ⟨hmx, hmy⟩ | ⟨hmx, hmy⟩ | ⟨hmx, hmy⟩⟩, rfl⟩
    · exact .inl (.inl ⟨x, y, hx, hy, hmx, hmy, rfl⟩)
    · exact .inl (.inr ⟨x, y, hx, hy, hmx, hmy, rfl⟩)
    · exact .inr ⟨x, y, hx, hy, hmx, hmy, rfl⟩

theorem finderModules_spans {n : Nat} (hn : 21 ≤ n) :
    Spans (finderModules n) 0 ((n : Int) - 1) 0 ((n : Int) - 1) := by
  have htopLeft : finderAt 0 0 ⊆ finderModules n := fun _ h =>
    List.mem_append_left _ (List.mem_append_left _ h)
  have hbottomLeft : finderAt 0 ((n : Int) - 7) ⊆ finderModules n := fun _ h =>
    List.mem_append_left _ (List.mem_append_right _ h)
  have htopRight : finderAt ((n : Int) - 7) 0 ⊆ finderModules n := fun _ h =>
    List.mem_append_right _ h
  constructor
  case within =>
    intro m hm
    rw [finderModules, List.mem_append, List.mem_append] at hm
    rcases hm with (hm | hm) | hm <;> obtain ⟨x, y, hx, hy, rfl⟩ := mem_finderAt.1 hm <;>
      dsimp only <;> omega
  case left => exact ⟨_, htopLeft (mem_finderAt.2 ⟨0, 0, by omega, by omega, rfl⟩), by simp⟩
  case right =>
    exact ⟨_, htopRight (mem_finderAt.2 ⟨6, 0, by omega, by omega, rfl⟩), by dsimp only; omega⟩
  case top => exact ⟨_, htopLeft (mem_finderAt.2 ⟨0, 0, by omega, by omega, rfl⟩), by simp⟩
  case bottom =>
    exact ⟨_, hbottomLeft (mem_finderAt.2 ⟨0, 6, by omega, by omega, rfl⟩), by dsimp only; omega⟩

/-! ### The timing lines -/

theorem mem_timingModules {n : Nat} {m : DrawnModule} : m ∈ timingModules n ↔
    ∃ i : Nat, 6 ≤ i ∧ i + 7 ≤ n ∧ (m = ⟨i, 6, i % 2 == 0⟩ ∨ m = ⟨6, i, i % 2 == 0⟩) := by
  simp only [timingModules, List.mem_flatMap, List.mem_range'_1, List.mem_cons, List.not_mem_nil,
    or_false, and_assoc]
  refine exists_congr fun i => and_congr_right fun h6 => and_congr_left' ?_
  omega

theorem exists_row_module {n : Nat} {i : Int} (h6 : 6 ≤ i) (hi : i + 7 ≤ n) :
    ∃ m ∈ timingModules n, m.mx = i ∧ m.my = 6 := by
  lift i to Nat using by omega
  exact ⟨_, mem_timingModules.2 ⟨i, by omega, by omega, .inl rfl⟩, rfl, rfl⟩

theorem exists_column_module {n : Nat} {i : Int} (h6 : 6 ≤ i) (hi : i + 7 ≤ n) :
    ∃ m ∈ timingModules n, m.mx = 6 ∧ m.my = i := by
  lift i to Nat using by omega
  exact ⟨_, mem_timingModules.2 ⟨i, by omega, by omega, .inr rfl⟩, rfl, rfl⟩

/-- The colour of a place of the matrix in the timing lines. -/
def timingColour (n : Nat) (mx my : Int) : Option Bool :=
  if my = 6 ∧ 6 ≤ mx ∧ mx + 7 ≤ n then some (mx.toNat % 2 == 0)
  else if mx = 6 ∧ 6 ≤ my ∧ my + 7 ≤ n then some (my.toNat % 2 == 0)
  else none

/-- The lines cross at `(6, 6)`, where both are dark. -/
theorem mem_timingModules_iff_colour {n : Nat} (m : DrawnModule) :
    m ∈ timingModules n ↔ timingColour n m.mx m.my = some m.dark := by
  rw [mem_timingModules, timingColour]
  constructor
  · rintro ⟨i, h6, hi, rfl | rfl⟩
    · exact if_pos (by dsimp only; omega)
    · by_cases hcross : i = 6
      · subst hcross
        exact if_pos (by dsimp only; omega)
      · exact (if_neg (by dsimp only; omega)).trans (if_pos (by dsimp only; omega))
  · obtain ⟨mx, my, dark⟩ := m
    simp only
    split_ifs with hrow hcolumn <;> intro h <;> cases h
    · exact ⟨mx.toNat, by omega, by omega, .inl (by rw [hrow.1, Int.toNat_of_nonneg (by omega)])⟩
    · exact ⟨my.toNat, by omega, by omega, .inr (by rw [hcolumn.1, Int.toNat_of_nonneg (by omega)])⟩

theorem timingModules_spans {n : Nat} (hn : 21 ≤ n) :
    Spans (timingModules n) 6 ((n : Int) - 7) 6 ((n : Int) - 7) where
  within m hm := by
    obtain ⟨i, h6, hi, rfl | rfl⟩ := mem_timingModules.1 hm <;> dsimp only <;> omega
  left := (exists_row_module (i := 6) (by omega) (by omega)).imp fun _ h => ⟨h.1, h.2.1⟩
  right := (exists_row_module (by omega) (by omega)).imp fun _ h => ⟨h.1, h.2.1⟩
  top := (exists_column_module (i := 6) (by omega) (by omega)).imp fun _ h => ⟨h.1, h.2.2⟩
  bottom := (exists_column_module (by omega) (by omega)).imp fun _ h => ⟨h.1, h.2.2⟩

theorem finderDark_of_ring {x y : Nat} (h : x = 0 ∨ x = 6 ∨ y = 0 ∨ y = 6) :
    finderDark x y = true :=
  if_pos h

/-- Settles O39: a timing line enters a finder on its outer ring and, `n` being odd, at an even
index. -/
theorem timingAgreesWithFinders : Obligations.TimingAgreesWithFinders := by
  intro v hv
  have hn := (matrixSize_bounds hv).1
  have hodd : matrixSize v % 2 = 1 := by unfold matrixSize; omega
  generalize matrixSize v = n at hn hodd
  refine ⟨fun m hm => ⟨?_, fun x y ho => ?_⟩, fun mx my => ⟨?_, ?_⟩⟩
  · have := (timingModules_spans hn).within m hm
    omega
  · rw [finderOffset_eq_some_iff hn] at ho
    obtain ⟨i, h6, hi, rfl | rfl⟩ := mem_timingModules.1 hm <;> simp only at ho
    · exact ⟨beq_iff_eq.2 (by omega), finderDark_of_ring (by omega)⟩
    · exact ⟨beq_iff_eq.2 (by omega), finderDark_of_ring (by omega)⟩
  · rintro ⟨⟨m, hm, rfl, rfl⟩, hfinder⟩
    obtain ⟨⟨x, y⟩, ho⟩ := Option.isSome_iff_exists.1 hfinder
    rw [finderOffset_eq_some_iff hn] at ho
    obtain ⟨i, h6, hi, rfl | rfl⟩ := mem_timingModules.1 hm <;>
      simp only [Prod.mk.injEq, and_true, true_and] at ho ⊢ <;> omega
  · rintro (h | h | h) <;> cases h
    · exact ⟨exists_row_module (by omega) (by omega), Option.isSome_of_eq_some
        ((finderOffset_eq_some_iff hn (x := 6) (y := 6)).2 (by omega))⟩
    · exact ⟨exists_row_module (by omega) (by omega), Option.isSome_of_eq_some
        ((finderOffset_eq_some_iff hn (x := 0) (y := 6)).2 (by omega))⟩
    · exact ⟨exists_column_module (by omega) (by omega), Option.isSome_of_eq_some
        ((finderOffset_eq_some_iff hn (x := 6) (y := 0)).2 (by omega))⟩

/-! ### The commands -/

theorem State.Drawable.side_bounds {s : State} (h : s.Drawable) : 21 ≤ s.side ∧ s.side ≤ 49 :=
  matrixSize_bounds h.version_mem

/-- A span of places of the matrix is bounded by the grid's far edge alone. -/
theorem axisFits_iff_le {S B w k : Nat} {lo hi : Int} (hlo : 0 ≤ lo) (hk : (k : Int) = B + hi + 1) :
    AxisFits S B w lo hi ↔ k * S ≤ w := by
  rw [AxisFits, ← hk]
  have : 0 ≤ (B : Int) + lo := by omega
  norm_cast
  exact and_iff_right this

theorem State.Drawable.fitsGrid_drf_iff {s : State} (hs : s.Drawable) : s.FitsGrid .drf ↔
    (s.border.toNat + s.side) * s.scale.toNat ≤ s.gridW.toNat ∧
      (s.border.toNat + s.side) * s.scale.toNat ≤ s.gridH.toNat := by
  obtain ⟨hn, -⟩ := hs.side_bounds
  exact (finderModules_spans hn).fits_iff.trans
    (and_congr (axisFits_iff_le (by omega) (by omega)) (axisFits_iff_le (by omega) (by omega)))

theorem State.Drawable.fitsGrid_drt_iff {s : State} (hs : s.Drawable) : s.FitsGrid .drt ↔
    (s.border.toNat + s.side - 6) * s.scale.toNat ≤ s.gridW.toNat ∧
      (s.border.toNat + s.side - 6) * s.scale.toNat ≤ s.gridH.toNat := by
  obtain ⟨hn, -⟩ := hs.side_bounds
  exact (timingModules_spans hn).fits_iff.trans
    (and_congr (axisFits_iff_le (by omega) (by omega)) (axisFits_iff_le (by omega) (by omega)))

/-- Settles O41: the finders span the whole matrix, and the truth table at the offset is their
picture. -/
theorem drfDrawsTheFinders : Obligations.DrfDrawsTheFinders := by
  intro s hs
  refine ⟨fun hw hh => ?_, fun hsmall => ?_⟩
  · have hfit := hs.fitsGrid_drf_iff.2 ⟨hw, hh⟩
    refine ⟨_, exec_draw_of_fits (by decide) hs hfit, rfl, fun px py hpx => ?_⟩
    rw [State.get_drawn hs hfit hpx py]
    refine (paintedPixel_of_colours (mem_finderModules hs.side_bounds.1) _ _ _ _ _).trans ?_
    rw [finderColour]
    cases finderOffset s.side ((px / s.scale.toNat : Nat) - (s.border.toNat : Int))
      ((py / s.scale.toNat : Nat) - (s.border.toNat : Int)) <;> rfl
  · exact exec_draw_of_not_fits (by decide) hs (mt hs.fitsGrid_drf_iff.1 (by omega))

/-- Settles O43: the timing lines span modules 6 to `n - 7`, and `timingColour` is their picture. -/
theorem drtDrawsTheTimingLines : Obligations.DrtDrawsTheTimingLines := by
  intro s hs
  refine ⟨fun hw hh => ?_, fun hsmall => ?_⟩
  · have hfit := hs.fitsGrid_drt_iff.2 ⟨hw, hh⟩
    refine ⟨_, exec_draw_of_fits (by decide) hs hfit, rfl, fun px py hpx => ?_⟩
    rw [State.get_drawn hs hfit hpx py]
    refine (paintedPixel_of_colours mem_timingModules_iff_colour _ _ _ _ _).trans ?_
    generalize px / s.scale.toNat = x, py / s.scale.toNat = y
    have hrow : (y : Int) - s.border.toNat = 6 ∧ 6 ≤ (x : Int) - s.border.toNat ∧
        (x : Int) - s.border.toNat + 7 ≤ s.side ↔
      y = s.border.toNat + 6 ∧ s.border.toNat + 6 ≤ x ∧ x + 7 ≤ s.border.toNat + s.side := by omega
    have hcolumn : (x : Int) - s.border.toNat = 6 ∧ 6 ≤ (y : Int) - s.border.toNat ∧
        (y : Int) - s.border.toNat + 7 ≤ s.side ↔
      x = s.border.toNat + 6 ∧ s.border.toNat + 6 ≤ y ∧ y + 7 ≤ s.border.toNat + s.side := by omega
    simp only [timingColour, hrow, hcolumn, Int.toNat_sub]
    split_ifs <;> rfl
  · exact exec_draw_of_not_fits (by decide) hs (mt hs.fitsGrid_drt_iff.1 (by omega))

end Sys2Proof.Machine
end

section
/-! The alignment patterns (45_pattern_renderer.md R192 to R196): the drawn centres, and the
rectangle the pattern of each spans. -/

namespace Sys2Proof.Machine

theorem not_inFinderZone_iff {cx cy : Int} {n : Nat} : (!inFinderZone cx cy n) = true ↔
    ¬((0 ≤ cx ∧ cx ≤ 7) ∧ 0 ≤ cy ∧ cy ≤ 7) ∧
      ¬((0 ≤ cx ∧ cx ≤ 7) ∧ (n : Int) - 8 ≤ cy ∧ cy ≤ (n : Int) - 1) ∧
      ¬(((n : Int) - 8 ≤ cx ∧ cx ≤ (n : Int) - 1) ∧ 0 ≤ cy ∧ cy ≤ 7) := by
  simp only [inFinderZone, Bool.not_eq_true', Bool.or_eq_false_iff, ← Bool.decide_and,
    decide_eq_false_iff_not, and_assoc]

theorem mem_alignCentres {n : Nat} {A : List Int} {cx cy : Int} :
    (cx, cy) ∈ alignCentres n A ↔ cx ∈ A ∧ cy ∈ A ∧ (!inFinderZone cx cy n) = true := by
  simp [alignCentres, and_assoc]

/-- Settles O38: membership by the exclusion test, version 7 by evaluation. -/
theorem drawnCentres : Obligations.DrawnCentres := by
  refine ⟨fun n A cx cy => ?_, ?_⟩
  · rw [mem_alignCentres, not_inFinderZone_iff]
  · rw [Config.alignOf_seven]
    decide

/-! ### The rectangle of a pattern -/

theorem mem_alignOffsets {d : Int} : d ∈ alignOffsets ↔ -2 ≤ d ∧ d ≤ 2 := by
  simp only [alignOffsets, List.mem_cons, List.not_mem_nil, or_false]
  omega

theorem mem_alignAt {cx cy : Int} {m : DrawnModule} : m ∈ alignAt cx cy ↔
    ∃ x y : Int, (-2 ≤ x ∧ x ≤ 2) ∧ (-2 ≤ y ∧ y ≤ 2) ∧ m = ⟨cx + x, cy + y, alignDark x y⟩ := by
  simp only [alignAt, List.mem_flatMap, List.mem_map, mem_alignOffsets]
  constructor
  · rintro ⟨y, hy, x, hx, rfl⟩
    exact ⟨x, y, hx, hy, rfl⟩
  · rintro ⟨x, y, hx, hy, rfl⟩
    exact ⟨y, hy, x, hx, rfl⟩

theorem alignAt_spans (cx cy : Int) :
    Spans (alignAt cx cy) (cx - 2) (cx + 2) (cy - 2) (cy + 2) := by
  constructor
  case within =>
    intro m hm
    obtain ⟨x, y, hx, hy, rfl⟩ := mem_alignAt.1 hm
    dsimp only
    omega
  case left => exact ⟨_, mem_alignAt.2 ⟨-2, 0, by decide, by decide, rfl⟩, rfl⟩
  case right => exact ⟨_, mem_alignAt.2 ⟨2, 0, by decide, by decide, rfl⟩, rfl⟩
  case top => exact ⟨_, mem_alignAt.2 ⟨0, -2, by decide, by decide, rfl⟩, rfl⟩
  case bottom => exact ⟨_, mem_alignAt.2 ⟨0, 2, by decide, by decide, rfl⟩, rfl⟩

/-! ### The command -/

theorem State.modules_dra_of_version_one {s : State} (h : s.version.toNat = 1) :
    s.modules .dra = [] :=
  if_neg (by omega)

theorem State.centres_of_version_one {s : State} (h : s.version.toNat = 1) : s.centres = [] := by
  rw [State.centres, h, Config.alignOf_one]
  rfl

/-- Version 1 has no alignment position, so its guard in R196 leaves out nothing (R193). -/
theorem State.Drawable.modules_dra {s : State} (hs : s.Drawable) :
    s.modules .dra = s.centres.flatMap fun p => alignAt p.1 p.2 := by
  by_cases h1 : s.version.toNat = 1
  · rw [State.modules_dra_of_version_one h1, State.centres_of_version_one h1, List.flatMap_nil]
  · obtain ⟨hv, -, -⟩ := hs
    exact if_pos (by omega)

theorem axisFits_centre_iff {S B w : Nat} {c : Int} : AxisFits S B w (c - 2) (c + 2) ↔
    0 ≤ (B : Int) + c - 2 ∧ ((B : Int) + c + 3) * S ≤ w := by
  rw [AxisFits, ← add_sub_assoc, show (B : Int) + (c + 2) + 1 = B + c + 3 by ring]

theorem State.Drawable.fitsGrid_dra_iff {s : State} (hs : s.Drawable) : s.FitsGrid .dra ↔
    ∀ p ∈ s.centres, 0 ≤ (s.border.toNat : Int) + p.1 - 2 ∧
      ((s.border.toNat : Int) + p.1 + 3) * s.scale.toNat ≤ s.gridW.toNat ∧
      0 ≤ (s.border.toNat : Int) + p.2 - 2 ∧
      ((s.border.toNat : Int) + p.2 + 3) * s.scale.toNat ≤ s.gridH.toNat := by
  simp only [State.FitsGrid, hs.modules_dra, List.forall_mem_flatMap, (alignAt_spans _ _).fits_iff,
    axisFits_centre_iff, and_assoc]

/-- Settles O42: the pattern of each centre spans 5 by 5 modules, and version 1 has no centre. -/
theorem draDrawsTheAlignmentPatterns : Obligations.DraDrawsTheAlignmentPatterns := by
  intro s hs
  refine ⟨fun h => ?_, fun h1 => ?_, fun ⟨p, hp, hout⟩ => ?_⟩
  · have hfit := hs.fitsGrid_dra_iff.2 h
    refine ⟨_, exec_draw_of_fits (by decide) hs hfit, rfl, fun px py hpx => ?_⟩
    rw [State.get_drawn hs hfit hpx py, hs.modules_dra]
  · have hnone : s.modules .dra = [] := State.modules_dra_of_version_one h1
    have hfit : s.FitsGrid .dra := by simp [State.FitsGrid, hnone]
    rw [exec_draw_of_fits (by decide) hs hfit, State.drawn, State.writes, hnone]
    rfl
  · refine exec_draw_of_not_fits (by decide) hs fun hfit => ?_
    obtain ⟨hl, hr, ht, hb⟩ := hs.fitsGrid_dra_iff.1 hfit p hp
    omega

end Sys2Proof.Machine
end

section
/-! The SymbolAssembler (46_symbol_assembler.md R211 to R215): its canvas holds the whole bordered
matrix, so the alignment patterns alone decide whether it completes, and what it draws is the three
drawing commands' lists in a row on a new grid. -/

namespace Sys2Proof.Machine

/-! ### What fits the canvas (R211, R212) -/

/-- The side of the canvas ASM attaches (R212). -/
def State.canvas (s : State) : Nat := canvasDim s.side s.scale.toNat s.border.toNat

/-- The modules ASM draws with the registers of `s` (R211). -/
def State.symbol (P : Params) (s : State) : List DrawnModule :=
  symbolModules P s.version.toNat s.side

/-- Every module ASM draws fits the canvas (R186, R211). -/
def State.FitsCanvas (P : Params) (s : State) : Prop :=
  ∀ m ∈ s.symbol P, m.Fits s.scale.toNat s.border.toNat s.canvas s.canvas

/-- The bordered matrix holds the alignment pattern centred at `p` (R211). -/
def State.HoldsPattern (s : State) (p : Int × Int) : Prop :=
  -(s.border.toNat : Int) ≤ p.1 - 2 ∧ p.1 + 2 < s.side + s.border.toNat ∧
    -(s.border.toNat : Int) ≤ p.2 - 2 ∧ p.2 + 2 < s.side + s.border.toNat

/-- The canvas holds the modules of the bordered matrix and no others (R182). -/
theorem axisFits_canvasDim_iff {n S B : Nat} (hS : S ≠ 0) {lo hi : Int} :
    AxisFits S B (canvasDim n S B) lo hi ↔ -(B : Int) ≤ lo ∧ hi < n + B := by
  have hpos : 0 < (S : Int) := by omega
  rw [AxisFits, canvasDim, Nat.cast_mul, mul_le_mul_iff_left₀ hpos]
  omega

theorem State.Drawable.canvas_le {s : State} (hs : s.Drawable) : s.canvas ≤ 142545 :=
  (canvasDim_bounds hs.side_bounds ⟨Nat.pos_of_ne_zero hs.scale_ne_zero, s.scale.isLt⟩
    s.border.isLt).2

theorem State.Drawable.canvas_toNat {s : State} (hs : s.Drawable) :
    (BitVec.ofNat 32 s.canvas).toNat = s.canvas := by
  have := hs.canvas_le
  rw [BitVec.toNat_ofNat]
  omega

/-- Finders and timing lines lie in the matrix; an alignment pattern may leave it (R182, R211). -/
theorem State.Drawable.fitsCanvas_iff {s : State} (hs : s.Drawable) (P : Params) :
    s.FitsCanvas P ↔ (2 ≤ s.version.toNat →
      ∀ p ∈ alignCentres s.side (P.alignOf s.version.toNat), s.HoldsPattern p) := by
  obtain ⟨hn, -⟩ := hs.side_bounds
  have haxis {lo hi : Int} : AxisFits s.scale.toNat s.border.toNat s.canvas lo hi ↔
      -(s.border.toNat : Int) ≤ lo ∧ hi < s.side + s.border.toNat :=
    axisFits_canvasDim_iff hs.scale_ne_zero
  have hfinder := (finderModules_spans hn).fits_iff.2 ⟨haxis.2 (by omega), haxis.2 (by omega)⟩
  have htiming := (timingModules_spans hn).fits_iff.2 ⟨haxis.2 (by omega), haxis.2 (by omega)⟩
  rw [State.FitsCanvas, State.symbol, symbolModules, List.forall_mem_append, List.forall_mem_append,
    and_iff_left htiming, and_iff_right hfinder, alignModules]
  by_cases hv : 2 ≤ s.version.toNat
  · rw [if_pos hv, forall_prop_of_true hv, List.forall_mem_flatMap]
    simp only [(alignAt_spans _ _).fits_iff, haxis, State.HoldsPattern, and_assoc]
  · rw [if_neg hv]
    exact iff_of_true nofun fun h => absurd h hv

/-! ### What the command answers -/

/-- The state ASM leaves when its checks pass. -/
def State.withSymbol (s : State) : State :=
  (s.assembled s.side (writeList Config.params s.scale.toNat s.border.toNat
    (s.symbol Config.params))).complete

theorem assembledWrites_of_fits {P : Params} {s : State} (hs : s.Drawable) (hfit : s.FitsCanvas P) :
    assembledWrites P s =
      .ok (s.side, writeList P s.scale.toNat s.border.toNat (s.symbol P)) := by
  rw [assembledWrites, checkParams_ok_iff.2 ⟨hs, rfl⟩]
  exact if_pos ((writeList_inside_iff hs.scale_ne_zero _).2 hfit)

theorem assembledWrites_of_not_fits {P : Params} {s : State} (hs : s.Drawable)
    (hfit : ¬ s.FitsCanvas P) : assembledWrites P s = .error .gridBoundsViolation := by
  rw [assembledWrites, checkParams_ok_iff.2 ⟨hs, rfl⟩]
  exact if_neg (mt (writeList_inside_iff hs.scale_ne_zero _).1 hfit)

theorem asmCmd_of_error {P : Params} {s : State} {c : Cause} (h : assembledWrites P s = .error c) :
    asmCmd P s = .error c := by
  rw [asmCmd, h]

theorem exec_asm_of_ok {s : State} {n : Nat} {ws : List PixWrite}
    (h : assembledWrites Config.params s = .ok (n, ws)) :
    exec .asm s = .next (s.assembled n ws).complete := by
  rw [exec_eq_conclude, commandWrites, asmCmd, h]
  rfl

theorem exec_asm_of_error {s : State} {c : Cause} (h : assembledWrites Config.params s = .error c) :
    exec .asm s = .next (s.raise c) := by
  rw [exec_eq_conclude, commandWrites, asmCmd_of_error h, conclude_error]

theorem exec_asm_of_fits {s : State} (hs : s.Drawable) (hfit : s.FitsCanvas Config.params) :
    exec .asm s = .next s.withSymbol :=
  exec_asm_of_ok (assembledWrites_of_fits hs hfit)

theorem State.raise_status_ne_done (c : Cause) (s : State) : (s.raise c).status ≠ 0b010 := by
  rw [State.raise_status]
  decide

theorem exec_asm_done {s t : State} (h : exec .asm s = .next t) (hdone : t.status = 0b010) :
    s.Drawable ∧ s.FitsCanvas Config.params ∧ t = s.withSymbol := by
  have hfault {c : Cause} (he : exec .asm s = .next (s.raise c)) : False := by
    rw [he] at h
    cases h
    exact State.raise_status_ne_done _ _ hdone
  cases hc : checkParams s with
  | error c => exact (hfault (exec_of_checkParams_error (by decide) hc)).elim
  | ok n =>
    obtain ⟨hs, -⟩ := checkParams_ok_iff.1 hc
    by_cases hfit : s.FitsCanvas Config.params
    · rw [exec_asm_of_fits hs hfit] at h
      cases h
      exact ⟨hs, hfit, rfl⟩
    · exact (hfault (exec_asm_of_error (assembledWrites_of_not_fits hs hfit))).elim

/-- R215: the checks and the write list of ASM read VERSION, SCALE and BORDER. -/
theorem assembledWrites_congr {s s' : State} (hversion : s.version = s'.version)
    (hscale : s.scale = s'.scale) (hborder : s.border = s'.border) (P : Params) :
    assembledWrites P s = assembledWrites P s' := by
  simp only [assembledWrites, checkParams, hversion, hscale, hborder]

/-! ### The picture -/

/-- ASM draws the modules of the three drawing commands, in their order (R211). -/
theorem State.symbol_eq_modules (s : State) :
    s.symbol Config.params = s.modules .drf ++ s.modules .dra ++ s.modules .drt := rfl

theorem State.Drawable.symbol_eq {s : State} (hs : s.Drawable) : s.symbol Config.params =
    finderModules s.side ++ (s.centres.flatMap fun p => alignAt p.1 p.2) ++ timingModules s.side := by
  rw [State.symbol_eq_modules, hs.modules_dra]
  rfl

/-- The picture of the symbol, on a background of PIX_INIT (R211, R213). -/
theorem State.get_withSymbol {s : State} (hs : s.Drawable) (hfit : s.FitsCanvas Config.params)
    {px : Nat} (hpx : px < 2 ^ 32) (py : Nat) : s.withSymbol.pix.get px py =
      paintedPixel (s.symbol Config.params) s.scale.toNat s.border.toNat px py
        (Config.pixInit s.canvas s.canvas px py) :=
  Grid.get_perform_writeList hs.scale_ne_zero (by have := hs.canvas_le; omega) hfit
    (s.pix.construct s.canvas s.canvas) hpx py

theorem Grid.perform_cells_congr {g g' : Grid} (h : g.cells = g'.cells) (ws : List PixWrite) :
    (g.perform ws).cells = (g'.perform ws).cells := by
  induction ws generalizing g g' with
  | nil => exact h
  | cons w ws ih => exact ih (congrArg (fun c => cellsSet c _ w.bit) h)

/-- Nothing of the grid attached before is left on a constructed one (R213). -/
theorem Grid.get_perform_construct (g g' : Grid) (w h : Nat) (ws : List PixWrite) (px py : Nat) :
    ((g.construct w h).perform ws).get px py = ((g'.construct w h).perform ws).get px py := by
  rw [Grid.get, Grid.get, Grid.unwritten, Grid.unwritten, Grid.perform_init, Grid.perform_init,
    Grid.perform_cells_congr (g := g.construct w h) (g' := g'.construct w h) rfl]
  rfl

/-! ### The three commands on a constructed grid (R214) -/

/-- The state with a constructed grid of the canvas's size attached. -/
def State.withCanvas (s : State) : State :=
  { s with
    gridW := BitVec.ofNat 32 s.canvas
    gridH := BitVec.ofNat 32 s.canvas
    pix := s.pix.construct s.canvas s.canvas }

theorem State.modules_subset_symbol (s : State) {i : Instr} (hi : i ∈ [Instr.drf, .dra, .drt]) :
    s.modules i ⊆ s.symbol Config.params := by
  rw [State.symbol_eq_modules]
  simp only [List.mem_cons, List.not_mem_nil, or_false] at hi
  rcases hi with rfl | rfl | rfl
  · exact fun _ h => List.mem_append_left _ (List.mem_append_left _ h)
  · exact fun _ h => List.mem_append_left _ (List.mem_append_right _ h)
  · exact fun _ h => List.mem_append_right _ h

theorem State.Drawable.fitsGrid_withCanvas {s : State} (hs : s.Drawable)
    (hfit : s.FitsCanvas Config.params) {i : Instr} (hi : i ∈ [Instr.drf, .dra, .drt]) :
    s.withCanvas.FitsGrid i := by
  intro m hm
  have hm' := hfit m (s.modules_subset_symbol hi hm)
  rwa [← hs.canvas_toNat] at hm'

/-- Performing ASM's list is performing the three commands' lists in turn (R185). -/
theorem State.perform_symbol_writes (s : State) (g : Grid) :
    g.perform (writeList Config.params s.scale.toNat s.border.toNat (s.symbol Config.params)) =
      ((g.perform (s.writes .drf)).perform (s.writes .dra)).perform (s.writes .drt) := by
  rw [State.symbol_eq_modules, writeList, List.flatMap_append, List.flatMap_append,
    Grid.perform_append, Grid.perform_append]
  rfl

/-! ### The obligations -/

/-- Settles O46: the symbol fits exactly when its alignment patterns lie on the bordered matrix. -/
theorem asmAssemblesTheSymbol : Obligations.AsmAssemblesTheSymbol := by
  rintro s dim hs rfl
  constructor
  · intro hhold
    have hfit := (hs.fitsCanvas_iff Config.params).2 fun _ => hhold
    obtain ⟨-, hside⟩ := hs.side_bounds
    refine ⟨_, exec_asm_of_fits hs hfit, rfl, ?_, hs.canvas_toNat, hs.canvas_toNat,
      hs.canvas_toNat, fun px py hpx _ => ?_⟩
    · exact (BitVec.toNat_ofNat _ _).trans (Nat.mod_eq_of_lt (by omega))
    · rw [← hs.symbol_eq]
      exact State.get_withSymbol hs hfit (hpx.trans_le (hs.canvas_le.trans (by decide))) py
  · rintro P ⟨p, hp, hv, hout⟩
    refine asmCmd_of_error (assembledWrites_of_not_fits hs fun hfit => ?_)
    obtain ⟨hl, hr, ht, hb⟩ := (hs.fitsCanvas_iff P).1 hfit hv p hp
    omega

/-- Settles O47: a pattern whose centre is 2 modules inside the matrix lies on it. -/
theorem asmFitsWhenCentresAreInRange : Obligations.AsmFitsWhenCentresAreInRange := by
  intro s hs hrange
  refine ⟨_, exec_asm_of_fits hs ((hs.fitsCanvas_iff _).2 fun _ p hp => ?_), rfl⟩
  obtain ⟨hx, hy, -⟩ := mem_alignCentres.1 hp
  have hcx := hrange p.1 hx
  have hcy := hrange p.2 hy
  unfold State.HoldsPattern
  omega

/-- Settles O48: each of the three lists fits because their concatenation does, and performing them
in turn is performing the concatenation. -/
theorem asmEqualsConstructThenDraw : Obligations.AsmEqualsConstructThenDraw := by
  intro s t h hdone
  obtain ⟨hs, hfit, rfl⟩ := exec_asm_done h hdone
  have hdim : s.withSymbol.dim.toNat = s.canvas := hs.canvas_toNat
  have hgrid {i : Instr} (hi : i ∈ [Instr.drf, .dra, .drt]) := hs.fitsGrid_withCanvas hfit hi
  rw [hdim]
  exact ⟨_, _, _, exec_draw_of_fits (by decide) hs (hgrid (i := .drf) (by decide)), rfl,
    exec_draw_of_fits (by decide) hs (hgrid (i := .dra) (by decide)), rfl,
    exec_draw_of_fits (by decide) hs (hgrid (i := .drt) (by decide)), rfl,
    (s.perform_symbol_writes _).symm⟩

/-- Settles O49: equal writes on canvases of equal side; the grids attached before do not matter. -/
theorem asmIgnoresTheBitStream : Obligations.AsmIgnoresTheBitStream := by
  intro s s' t t' hversion hscale hborder h h'
  have hwrites := assembledWrites_congr hversion hscale hborder Config.params
  cases hc : assembledWrites Config.params s' with
  | error c =>
    rw [exec_asm_of_error (hwrites.trans hc)] at h
    rw [exec_asm_of_error hc] at h'
    cases h
    cases h'
    exact ⟨rfl, fun hdone => absurd hdone (State.raise_status_ne_done _ _)⟩
  | ok r =>
    rw [exec_asm_of_ok (hwrites.trans hc)] at h
    rw [exec_asm_of_ok hc] at h'
    cases h
    cases h'
    have hdim : canvasDim r.1 s.scale.toNat s.border.toNat =
        canvasDim r.1 s'.scale.toNat s'.border.toNat := by rw [hscale, hborder]
    simp only [State.complete_msize, State.complete_dim, State.complete_gridW, State.complete_gridH,
      State.complete_pix, State.assembled, hdim, true_and]
    exact ⟨rfl, fun _ => Grid.get_perform_construct _ _ _ _ _⟩

end Sys2Proof.Machine
end

section
/-! The encode pipeline and NOP (47_pipeline_and_system.md R221 to R224, R228). SYM makes its symbol data
with the functions that ENC, SEL, FIN and ECC apply to the state, and each command of that sequence leaves
the state in which the check of the next one is the check SYM makes: so both complete with one stream, or
fault alike. -/

namespace Sys2Proof.Machine

/-! ### The steps of SYM (R221) -/

theorem finishStream_of_fits {P : Params} {T : Nat} {w : Bits}
    (h : finishedLength w.length T ≤ P.bsMax) : finishStream P T w = .ok (finishBits T w) :=
  if_neg (Nat.not_lt.2 h)

theorem protectStream_of_fits {P : Params} {w : Bits} (h : w.length / 8 ≤ 248) :
    protectStream P w = .ok (protectBits P w) :=
  if_neg (Nat.not_lt.2 h)

/-- The first step of SYM that fails, with the results of the steps before it. -/
theorem symbolData_error_inv {P : Params} {t : Tier} {w : Bits} {c : Cause}
    (h : symbolData P t w = .error c) :
    (choose P t w.length = none ∧ c = .capacityExceeded w.length) ∨
    ∃ v, choose P t w.length = some v ∧
      (finishStream P (P.capOf v t) w = .error c ∨
        ∃ f, finishStream P (P.capOf v t) w = .ok f ∧ protectStream P f = .error c) := by
  unfold symbolData at h
  rcases selectVersion_cases P t w.length with ⟨v, hv, he⟩ | ⟨hv, he⟩ <;> simp only [he] at h
  · refine .inr ⟨v, hv, ?_⟩
    cases hf : finishStream P (P.capOf v t) w with
    | error d => simp only [hf] at h; cases h; exact .inl rfl
    | ok f =>
      cases hp : protectStream P f with
      | error d => simp only [hf, hp] at h; cases h; exact .inr ⟨f, rfl, hp⟩
      | ok e => simp only [hf, hp] at h; cases h
  · cases h
    exact .inl ⟨hv, rfl⟩

theorem finishStream_error_code {P : Params} {T : Nat} {w : Bits} {c : Cause}
    (h : finishStream P T w = .error c) : c.code = 11 := by
  rcases finishStream_cases P T w with ⟨-, he⟩ | ⟨-, he⟩ <;> rw [he] at h <;> cases h
  rfl

theorem protectStream_error_code {P : Params} {w : Bits} {c : Cause}
    (h : protectStream P w = .error c) : c.code = 12 := by
  rcases protectStream_cases P w with ⟨-, he⟩ | ⟨-, he⟩ <;> rw [he] at h <;> cases h
  rfl

/-- Only the selection reports CapacityExceeded. -/
theorem symbolData_error_code_ne_one {P : Params} {t : Tier} {w : Bits} {c : Cause}
    (hfit : choose P t w.length ≠ none) (h : symbolData P t w = .error c) : c.code ≠ 1 := by
  obtain ⟨hnone, -⟩ | ⟨v, -, hf | ⟨f, -, hp⟩⟩ := symbolData_error_inv h
  · exact absurd hnone hfit
  · rw [finishStream_error_code hf]; decide
  · rw [protectStream_error_code hp]; decide

/-! ### SYM -/

/-- The state SYM leaves with the version `v` and the finished and protected stream `e`. -/
def State.symbolized (r : Tier) (v : Nat) (e : Bits) (s : State) : State :=
  ((s.replaceStream e).setVersion Config.params r v).complete

theorem State.stream_symbolized {e : Bits} (h : e.length < 65536) (r : Tier) (v : Nat) (s : State) :
    (s.symbolized r v e).stream = e :=
  State.stream_replaceStream h s

theorem exec_sym_of_ok {s : State} {r : Tier} {w f e : Bits} {v : Nat}
    (hw : encodeInput Config.params s = .ok w) (hv : choose Config.params r w.length = some v)
    (hf : finishStream Config.params (Config.params.capOf v r) w = .ok f)
    (hp : protectStream Config.params f = .ok e) :
    exec (.sym r) s = .next (s.symbolized r v e) := by
  rw [exec_eq_conclude, commandWrites]
  simp only [symCmd, hw, symbolData, selectVersion, hv, hf, hp, conclude_ok, State.symbolized]

theorem exec_sym_overflow {s : State} {r : Tier} {w : Bits}
    (hw : encodeInput Config.params s = .ok w) (hcap : Config.params.capOf 8 r < w.length) :
    exec (.sym r) s = .next (s.raise (.capacityExceeded w.length)) := by
  have hv := (choose_eq_none_iff Config.params_valid).2 hcap
  rw [exec_eq_conclude, commandWrites]
  simp only [symCmd, hw, symbolData, selectVersion, hv, conclude_error]

theorem State.Admitted.encodeInput_eq {s : State} (h : s.Admitted) :
    encodeInput Config.params s = .ok s.encoding :=
  encodeInput_ok h.1 h.2

/-! ### The symbol data (R222) -/

/-- The finished and protected stream of `w` at target `T`. -/
def symbolBits (T : Nat) (w : Bits) : Bits := protectBits Config.params (finishBits T w)

@[simp] theorem symbolBits_length (T : Nat) (w : Bits) :
    (symbolBits T w).length = finishedLength w.length T + 56 := by
  rw [symbolBits, protectBits_length Config.params_valid, finishBits_length]

theorem prefix_symbolBits (T : Nat) (w : Bits) : w <+: symbolBits T w :=
  (prefix_finishBits T w).trans (List.prefix_append _ _)

theorem take_symbolBits (T : Nat) (w : Bits) :
    (symbolBits T w).take (finishedLength w.length T) = finishBits T w :=
  List.take_left' (finishBits_length T w)

theorem drop_symbolBits (T : Nat) (w : Bits) :
    (symbolBits T w).drop (finishedLength w.length T) =
      (rsRemainder Config.params (bytes (finishBits T w))).flatMap bin8 :=
  List.drop_left' (finishBits_length T w)

/-- The state SYM leaves on an admitted string for which it chose version `v`. -/
def State.withSymbolData (r : Tier) (v : Nat) (s : State) : State :=
  s.symbolized r v (symbolBits (Config.params.capOf v r) s.encoding)

section SymbolData

variable {s : State} {r : Tier} {v : Nat}
  (hk : finishedLength s.encoding.length (Config.params.capOf v r) / 8 ≤ 248)
include hk

theorem State.Admitted.exec_sym (ha : s.Admitted)
    (hv : choose Config.params r s.encoding.length = some v) :
    exec (.sym r) s = .next (s.withSymbolData r v) := by
  have hbs := Config.bsMax_bounds.1
  exact exec_sym_of_ok ha.encodeInput_eq hv (finishStream_of_fits (by omega))
    (protectStream_of_fits (by rwa [finishBits_length]))

theorem State.stream_withSymbolData :
    (s.withSymbolData r v).stream = symbolBits (Config.params.capOf v r) s.encoding :=
  State.stream_symbolized (by rw [symbolBits_length]; omega) r v s

theorem State.bslen_withSymbolData : (s.withSymbolData r v).bslen.toNat =
    finishedLength s.encoding.length (Config.params.capOf v r) + 56 := by
  rw [← State.stream_length, State.stream_withSymbolData hk, symbolBits_length]

end SymbolData

theorem State.withSymbolData_eq_endsClean (r : Tier) (v : Nat) (s : State) :
    s.withSymbolData r v = State.endsClean { s with
      bs := (s.withSymbolData r v).bs
      bslen := BitVec.ofNat 16
        (finishedLength s.encoding.length (Config.params.capOf v r) + 56)
      version := BitVec.ofNat 8 v
      target := BitVec.ofNat 16 (Config.params.capOf v r)
      free := s.free + 1 } := by
  rw [← symbolBits_length]
  rfl

theorem State.target_withSymbolData (r : Tier) {v : Nat} (hv : v ∈ versions) (s : State) :
    (s.withSymbolData r v).target.toNat = Config.params.capOf v r := by
  rw [State.withSymbolData, State.symbolized, State.complete_target,
    State.setVersion_target_toNat r _ hv]

/-! ### The sequence ENC, SEL, FIN, ECC (R223) -/

theorem exec_enc_of_ok {s : State} {w : Bits} (h : encodeInput Config.params s = .ok w) :
    exec .enc s = .next (s.replaceStream w).complete := by
  rw [exec_eq_conclude, commandWrites, encCmd, h, conclude_ok]

/-- FIN on a stream that BS and the target hold finishes it or reports that the result does not fit. -/
theorem exec_fin_eq {s : State} (hmax : s.stream.length ≤ Config.params.bsMax)
    (htarget : s.stream.length ≤ s.target.toNat) :
    exec .fin s = conclude s
      ((finishStream Config.params s.target.toNat s.stream).map fun f => s.writeStream f) := by
  rw [State.stream_length] at hmax htarget
  rw [exec_eq_conclude, commandWrites, finCmd, if_neg (Nat.not_lt.2 hmax),
    if_neg (Nat.not_lt.2 htarget)]
  cases finishStream Config.params s.target.toNat s.stream <;> rfl

theorem conclude_map_ok {s : State} {x : Except Cause Bits} {w : Bits} (g : Bits → State)
    (h : x = .ok w) : conclude s (x.map g) = .next (g w).complete := by
  rw [h, Except.map, conclude_ok]

theorem conclude_map_error {s : State} {x : Except Cause Bits} {c : Cause} (g : Bits → State)
    (h : x = .error c) : conclude s (x.map g) = .next (s.raise c) := by
  rw [h, Except.map, conclude_error]

theorem finishStream_ok_length_mod {P : Params} {T : Nat} {w f : Bits}
    (h : finishStream P T w = .ok f) : f.length % 8 = 0 := by
  rcases finishStream_cases P T w with ⟨-, he⟩ | ⟨-, he⟩ <;> rw [he] at h <;> cases h
  rw [finishBits_length, finishedLength_mod]

/-- The state ENC and SEL leave with the stream `w` and the version `v`. -/
def State.selected (r : Tier) (v : Nat) (w : Bits) (s : State) : State :=
  ((s.replaceStream w).complete.setVersion Config.params r v).complete

section Sequence

variable {s : State} {r : Tier} {w : Bits} {v : Nat} (hw : encodeInput Config.params s = .ok w)
include hw

theorem encodeInput_length_lt : w.length < 65536 := by
  obtain ⟨hlen, hle⟩ := encodeInput_length hw
  omega

theorem bslen_afterEnc : (s.replaceStream w).complete.bslen.toNat = w.length :=
  Nat.mod_eq_of_lt (encodeInput_length_lt hw)

theorem exec_sel_afterEnc_overflow (hv : choose Config.params r w.length = none) :
    exec (.sel r) (s.replaceStream w).complete =
      .next ((s.replaceStream w).complete.raise (.capacityExceeded w.length)) := by
  rw [choose_eq_none_iff Config.params_valid, ← bslen_afterEnc hw] at hv
  rw [exec_sel_overflow hv, bslen_afterEnc hw]

variable (hv : choose Config.params r w.length = some v)
include hv

theorem exec_sel_afterEnc :
    exec (.sel r) (s.replaceStream w).complete = .next (s.selected r v w) :=
  exec_sel_of_choose (by rwa [bslen_afterEnc hw])

/-- FIN after SEL finishes as SYM does: SEL left the capacity in TARGET. -/
theorem exec_fin_afterSel :
    exec .fin (s.selected r v w) = conclude (s.selected r v w)
      ((finishStream Config.params (Config.params.capOf v r) w).map
        fun f => (s.selected r v w).writeStream f) := by
  obtain ⟨hmem, hfit⟩ := choose_some hv
  have hstream : (s.selected r v w).stream = w :=
    State.stream_replaceStream (encodeInput_length_lt hw) s
  have htarget : (s.selected r v w).target.toNat = Config.params.capOf v r :=
    State.setVersion_target_toNat r _ hmem
  rw [exec_fin_eq, hstream, htarget]
  · rw [hstream]
    exact encodeInput_ok_length Config.params_valid hw
  · rwa [hstream, htarget]

end Sequence

/-- After FIN the checks of ECC are those of SYM: FIN left whole bytes, and no more than BS holds. -/
theorem eccStream_afterFin {b : State} {T : Nat} {w f : Bits}
    (hf : finishStream Config.params T w = .ok f) :
    eccStream Config.params (b.writeStream f).complete.stream = protectStream Config.params f := by
  have hmax := finishStream_ok_length hf
  have hbs := Config.bsMax_bounds.2
  have hstream : (b.writeStream f).complete.stream = f := State.stream_writeStream (by omega) b
  rw [hstream, eccStream_of_aligned hmax (finishStream_ok_length_mod hf)]

theorem State.report_raise (c : Cause) (s s' : State) : (s.raise c).report = (s'.raise c).report :=
  rfl

/-! ### The obligations -/

/-- Settles O34: the stream is `symbolBits` of the encoded input, which is that input finished to the
capacity, then the redundancy. -/
theorem symMakesSymbolData : Obligations.SymMakesSymbolData := by
  rintro s r v L3 ha hmem hfit hleast rfl hk
  rw [← s.encoding_length] at hfit hleast hk ⊢
  have hmod := finishedLength_mod s.encoding.length (Config.params.capOf v r)
  have hstream := State.stream_withSymbolData hk
  have hbslen := State.bslen_withSymbolData hk
  have htake := take_symbolBits (Config.params.capOf v r) s.encoding
  refine ⟨_, ha.exec_sym hk (choose_eq_some_iff.2 ⟨hmem, hfit, hleast⟩),
    s.withSymbolData_eq_endsClean r v, hbslen, by omega, fun haligned => ?target, ?encoding,
    ?finished, ?redundancy, ?decoded⟩
  case target =>
    rw [hbslen, s.target_withSymbolData r hmem, finishedLength_of_aligned_target hfit haligned]
  case encoding =>
    rw [hstream]
    exact (List.prefix_iff_eq_take.1 (prefix_symbolBits _ _)).symm
  case finished =>
    rw [hstream]
    exact htake
  case redundancy =>
    rw [hstream, htake, drop_symbolBits]
  case decoded =>
    have hbs := Config.bsMax_bounds.1
    exact ha.dec_returns_input (hstream ▸ prefix_symbolBits _ _) (by omega)

/-- Settles O35: where SYM completes, each command of the sequence passes the check of that step of SYM;
where SYM faults, the command of the failing step reports its fault. -/
theorem symEqualsTheCommandSequence : Obligations.SymEqualsTheCommandSequence := by
  intro s e r h
  rw [exec_eq_conclude] at h
  obtain ⟨u, hu, rfl⟩ | ⟨c, hc, rfl⟩ := conclude_cases h
  · refine ⟨fun _ => ?_, fun hfault =>
      absurd hfault (by rw [State.complete_status]; decide)⟩
    obtain ⟨w, v, p, hw, hd, rfl⟩ := symCmd_inv hu
    obtain ⟨hv, f, hf, hp⟩ := symbolData_inv hd
    have hlen := protectStream_ok_length Config.params_valid hp
    have hbs := Config.bsMax_bounds.2
    exact ⟨_, _, _, _, exec_enc_of_ok hw, rfl, exec_sel_afterEnc hw hv, rfl,
      (exec_fin_afterSel hw hv).trans (conclude_map_ok _ hf), rfl,
      exec_ecc_of_ok ((eccStream_afterFin hf).trans hp), rfl, rfl, rfl, rfl,
      (State.stream_symbolized (by omega) r v s).trans (State.stream_writeStream (by omega) _).symm⟩
  · refine ⟨fun hdone => absurd hdone (State.raise_status_ne_done c s), fun _ => ?_⟩
    obtain he | ⟨w, hw, hd⟩ := symCmd_error hc
    · exact ⟨_, State.report_raise c _ s, .inl (exec_of_encodeInput_error he).1⟩
    have henc := exec_enc_of_ok hw
    obtain ⟨hv, rfl⟩ | ⟨v, hv, hf | ⟨f, hf, hp⟩⟩ := symbolData_error_inv hd
    · exact ⟨_, State.report_raise _ _ s, .inr ⟨_, henc, rfl,
        .inl (exec_sel_afterEnc_overflow hw hv)⟩⟩
    · exact ⟨_, State.report_raise c _ s, .inr ⟨_, henc, rfl, .inr ⟨_, exec_sel_afterEnc hw hv, rfl,
        .inl ((exec_fin_afterSel hw hv).trans (conclude_map_error _ hf))⟩⟩⟩
    · exact ⟨_, State.report_raise c _ s, .inr ⟨_, henc, rfl, .inr ⟨_, exec_sel_afterEnc hw hv, rfl,
        .inr ⟨_, (exec_fin_afterSel hw hv).trans (conclude_map_ok _ hf), rfl,
          exec_ecc_of_error ((eccStream_afterFin hf).trans hp)⟩⟩⟩⟩

/-- Settles O11: the word 0x00 is NOP's, and NOP only completes. -/
theorem nopOnlyClearsTheReport : Obligations.NopOnlyClearsTheReport :=
  ⟨decodeReadsTheOpcodeMap.1, fun s => exec_eq_conclude .nop s⟩

/-- Settles O36: 79 characters are 644 bits, 78 are 636, and the last capacity at tier H is 640. -/
theorem tierHOverflow : Obligations.TierHOverflow := by
  intro s ha
  have hcap := Config.capOf_eight_H
  refine ⟨by omega, fun hlong => ?_, fun hlen => ⟨_, exec_eq_conclude (.sym .H) s, ?_⟩⟩
  · have hexec := exec_sym_overflow (r := .H) ha.encodeInput_eq
    rw [s.encoding_length, hcap] at hexec
    exact hexec (by omega)
  · refine exec_errcode_ne (by decide) (fun c hc => ?_) (exec_eq_conclude (.sym .H) s)
    obtain he | ⟨w, hw, hd⟩ := symCmd_error hc
    · rw [ha.encodeInput_eq] at he; cases he
    · rw [ha.encodeInput_eq] at hw
      cases hw
      refine symbolData_error_code_ne_one (fun hnone => ?_) hd
      rw [choose_eq_none_iff Config.params_valid, s.encoding_length, hcap] at hnone
      omega

end Sys2Proof.Machine
end

section
/-! The faults and their order (60_exceptions.md R240, R250, R253, R255, R256). A command is a chain
of checked operations. What it reports is the fault of the first operation that fails, so the order
of its row is read off the chain, one rule for each operation. -/

namespace Sys2Proof.Machine

/-! ### What a command reports -/

/-- The report of a command, or of a step of one, that answers `r` (R255, R256). -/
def reportOf {α : Type} : Except Cause α → BitVec 8 × BitVec 8 × BitVec 32
  | .ok _ => (0b010, 0, 0)
  | .error c => (0b110, c.code, c.info)

theorem reportOf_ite {α : Type} (p : Prop) [Decidable p] (x y : Except Cause α) :
    reportOf (if p then x else y) = if p then reportOf x else reportOf y :=
  apply_ite reportOf p x y

theorem reportOf_map {α β : Type} (f : α → β) (x : Except Cause α) :
    reportOf (x.map f) = reportOf x := by
  cases x <;> rfl

theorem conclude_reports (s : State) (r : Except Cause State) :
    ∃ t, conclude s r = .next t ∧ t.report = reportOf r := by
  cases r with
  | ok t => exact ⟨_, conclude_ok s t, rfl⟩
  | error c => exact ⟨_, conclude_error s c, rfl⟩

theorem exec_reports {i : Instr} {s : State} {R : BitVec 8 × BitVec 8 × BitVec 32}
    (h : reportOf (commandWrites Config.params s i) = R) :
    ∃ t, exec i s = .next t ∧ t.report = R := by
  rw [exec_eq_conclude, ← h]
  exact conclude_reports s _

/-! ### A checked operation, then the rest of the command

Each operation reports its own faults in the order of its checks, and past them the rest decides. -/

section Operations

variable {α : Type} (P : Params)

theorem reportOf_bind_checkParams (s : State) (f : Nat → Except Cause α) :
    reportOf ((checkParams s).bind f) =
      if s.version.toNat < 1 ∨ 8 < s.version.toNat then (0b110, 7, 7)
      else if s.scale.toNat = 0 then (0b110, 7, 9)
      else reportOf (f s.side) := by
  unfold checkParams
  split_ifs <;> rfl

theorem reportOf_bind_encodeInput (s : State) (f : Bits → Except Cause α) :
    reportOf ((encodeInput P s).bind f) =
      if 255 < s.len.toNat then (0b110, 2, BitVec.ofNat 32 s.len.toNat)
      else match firstUnsupported s.inputString with
        | some i => (0b110, 3, BitVec.ofNat 32 i)
        | none => reportOf (f (byteModeStream P.modeByte s.inputBytes)) := by
  unfold encodeInput
  split_ifs
  · rfl
  · cases firstUnsupported s.inputString <;> rfl

theorem reportOf_bind_selectVersion (t : Tier) (n : Nat) (f : Nat → Except Cause α) :
    reportOf ((selectVersion P t n).bind f) =
      match choose P t n with
      | none => (0b110, 1, BitVec.ofNat 32 n)
      | some v => reportOf (f v) := by
  unfold selectVersion
  cases choose P t n <;> rfl

theorem reportOf_bind_finishStream (T : Nat) (w : Bits) (f : Bits → Except Cause α) :
    reportOf ((finishStream P T w).bind f) =
      if P.bsMax < finishedLength w.length T then
        (0b110, 11, BitVec.ofNat 32 (finishedLength w.length T))
      else reportOf (f (finishBits T w)) := by
  unfold finishStream
  split_ifs <;> rfl

theorem reportOf_bind_protectStream (w : Bits) (f : Bits → Except Cause α) :
    reportOf ((protectStream P w).bind f) =
      if 248 < w.length / 8 then (0b110, 12, BitVec.ofNat 32 (w.length / 8))
      else reportOf (f (protectBits P w)) := by
  unfold protectStream kMax
  split_ifs <;> rfl

/-- The bounds check of a write list, the last check of a drawing (R186). -/
theorem reportOf_bounds (inside : Bool) (a : α) :
    reportOf (if inside = true then .ok a else .error .gridBoundsViolation) =
      if inside = false then (0b110, 5, 0) else (0b010, 0, 0) := by
  cases inside <;> rfl

end Operations

/-! ### The commands as chains of those operations -/

section Chains

variable (P : Params) (t : Tier) (s : State)

theorem selCmd_eq_bind : selCmd P t s =
    (selectVersion P t s.bslen.toNat).bind fun v => .ok (s.setVersion P t v) := by
  unfold selCmd
  cases selectVersion P t s.bslen.toNat <;> rfl

theorem encCmd_eq_bind :
    encCmd P s = (encodeInput P s).bind fun w => .ok (s.replaceStream w) := by
  unfold encCmd
  cases encodeInput P s <;> rfl

theorem finCmd_eq_bind : finCmd P s =
    if P.bsMax < s.bslen.toNat then .error (.bufferOverflow s.bslen.toNat)
    else if s.target.toNat < s.bslen.toNat then .error (.targetTooSmall s.bslen.toNat)
    else (finishStream P s.target.toNat s.stream).bind fun w => .ok (s.writeStream w) := by
  unfold finCmd
  cases finishStream P s.target.toNat s.stream <;> rfl

theorem symbolData_eq_bind (w : Bits) : symbolData P t w =
    (selectVersion P t w.length).bind fun v =>
      (finishStream P (P.capOf v t) w).bind fun f =>
        (protectStream P f).bind fun e => .ok (v, e) := by
  unfold symbolData
  cases selectVersion P t w.length with
  | error c => rfl
  | ok v =>
    cases hf : finishStream P (P.capOf v t) w with
    | error c => simp only [Except.bind, hf]
    | ok f => cases hp : protectStream P f <;> simp only [Except.bind, hf, hp]

theorem symCmd_eq_bind : symCmd P t s =
    (encodeInput P s).bind fun w =>
      (symbolData P t w).map fun d => (s.replaceStream d.2).setVersion P t d.1 := by
  unfold symCmd
  cases encodeInput P s with
  | error c => rfl
  | ok w => cases hd : symbolData P t w <;> simp only [Except.bind, Except.map, hd]

theorem drawCmd_eq_map (ms : Nat → List DrawnModule) : drawCmd P s ms =
    (drawnWrites P s ms).map fun ws => { s with pix := s.pix.perform ws } := by
  unfold drawCmd
  cases drawnWrites P s ms <;> rfl

theorem drawnWrites_eq_bind (ms : Nat → List DrawnModule) : drawnWrites P s ms =
    (checkParams s).bind fun n =>
      if (writeList P s.scale.toNat s.border.toNat (ms n)).all
          (PixWrite.inside s.gridW.toNat s.gridH.toNat) then
        .ok (writeList P s.scale.toNat s.border.toNat (ms n))
      else .error .gridBoundsViolation := by
  unfold drawnWrites
  cases checkParams s <;> rfl

theorem asmCmd_eq_map : asmCmd P s =
    (assembledWrites P s).map fun r => s.assembled r.1 r.2 := by
  unfold asmCmd
  cases assembledWrites P s <;> rfl

theorem assembledWrites_eq_bind : assembledWrites P s =
    (checkParams s).bind fun n =>
      if (writeList P s.scale.toNat s.border.toNat (symbolModules P s.version.toNat n)).all
          (PixWrite.inside (canvasDim n s.scale.toNat s.border.toNat)
            (canvasDim n s.scale.toNat s.border.toNat)) then
        .ok (n, writeList P s.scale.toNat s.border.toNat (symbolModules P s.version.toNat n))
      else .error .gridBoundsViolation := by
  unfold assembledWrites
  cases checkParams s <;> rfl

/-- SEL finds no version exactly when the last capacity is too small. -/
theorem reportOf_selCmd (hP : P.valid = true) : reportOf (selCmd P t s) =
    if P.capOf 8 t < s.bslen.toNat then (0b110, 1, BitVec.ofNat 32 s.bslen.toNat)
    else (0b010, 0, 0) := by
  rw [selCmd_eq_bind, reportOf_bind_selectVersion]
  simp only [← choose_eq_none_iff hP]
  cases choose P t s.bslen.toNat <;> rfl

theorem reportOf_symbolData (w : Bits) : reportOf (symbolData P t w) =
    match choose P t w.length with
    | none => (0b110, 1, BitVec.ofNat 32 w.length)
    | some v =>
      if P.bsMax < finishedLength w.length (P.capOf v t) then
        (0b110, 11, BitVec.ofNat 32 (finishedLength w.length (P.capOf v t)))
      else if 248 < finishedLength w.length (P.capOf v t) / 8 then
        (0b110, 12, BitVec.ofNat 32 (finishedLength w.length (P.capOf v t) / 8))
      else (0b010, 0, 0) := by
  simp only [symbolData_eq_bind, reportOf_bind_selectVersion, reportOf_bind_finishStream,
    reportOf_bind_protectStream, finishBits_length]
  rfl

end Chains

/-! ### The obligations -/

/-- Settles O7: a command completes, or raises a fault of the table. -/
theorem everyCommandCompletes : Obligations.EveryCommandCompletes := by
  intro i s
  rw [exec_eq_conclude]
  cases commandWrites Config.params s i with
  | ok t => exact ⟨_, conclude_ok s t, .inl t.complete_report⟩
  | error c => exact ⟨_, conclude_error s c, .inr ⟨s.raise_status c, c.code_bounds⟩⟩

/-- Settles O8: a command that completed does not end in the STATUS of a fault, and raising one
writes the report alone. -/
theorem faultsArePrecise : Obligations.FaultsArePrecise := by
  intro i s t h hfault
  obtain ⟨u, -, rfl⟩ | ⟨c, rfl⟩ := exec_cases h
  · exact absurd hfault (by rw [State.complete_status]; decide)
  · rfl

/-- Settles O9: the row of a command is the chain of its operations. -/
theorem checksInOrder : Obligations.ChecksInOrder := by
  refine ⟨fun s hs => ⟨_, runCommand_illegal hs, rfl⟩, fun _ => exec_reports rfl,
    fun _ => exec_reports rfl,
    fun s r => exec_reports (reportOf_selCmd _ r s Config.params_valid),
    fun s => exec_reports ?enc, fun s => exec_reports ?fin, fun s => exec_reports ?ecc,
    fun s => exec_reports ?dec, fun s r => exec_reports ?sym,
    fun s p hp => exec_reports ?draw, fun s => exec_reports ?asm⟩
  case enc =>
    rw [commandWrites, encCmd_eq_bind]
    exact reportOf_bind_encodeInput _ s _
  case fin =>
    rw [commandWrites, finCmd_eq_bind, reportOf_ite, reportOf_ite, reportOf_bind_finishStream,
      State.stream_length]
    rfl
  case ecc =>
    rw [commandWrites, eccCmd_eq_map, reportOf_map, eccStream, protectStream, reportOf_ite,
      reportOf_ite, reportOf_ite, State.stream_length]
    rfl
  case dec =>
    rw [commandWrites, decCmd, reportOf_ite, reportOf_ite, reportOf_ite, reportOf_ite, reportOf_ite]
    rfl
  case sym =>
    have hsym := congrArg reportOf (symCmd_eq_bind Config.params r s)
    rw [reportOf_bind_encodeInput, reportOf_map, reportOf_symbolData, byteModeStream_length,
      State.inputBytes_length] at hsym
    exact hsym
  case draw =>
    have hdraw : commandWrites Config.params s p.1 = drawCmd Config.params s p.2 := by
      simp only [List.mem_cons, List.not_mem_nil, or_false] at hp
      rcases hp with rfl | rfl | rfl <;> rfl
    rw [hdraw, drawCmd_eq_map, reportOf_map, drawnWrites_eq_bind, reportOf_bind_checkParams,
      reportOf_bounds]
  case asm =>
    rw [commandWrites, asmCmd_eq_map, reportOf_map, assembledWrites_eq_bind,
      reportOf_bind_checkParams, reportOf_bounds]
    rfl

end Sys2Proof.Machine
end

section
/-! What the host can do to the block, and what only the host can do: one event on an idle block
(10_state.md R21 to R23, 20_memory.md R60, R66, R69, R70), one event during a command
(70_reset_and_hazards.md R288, R290). -/

namespace Sys2Proof.Machine

/-! ### A step with an event of the outside before it -/

theorem step_idle_cons {s : State} {e : HostEvent} {rest : List HostEvent} (hb : s.busy = false)
    (hh : s.host = e :: rest) : step s = hostEvent e { s with host := rest } := by
  rw [step_idle hb, idleStep, hh]

theorem step_busy_cons {s : State} {e : BusyEvent} {rest : List BusyEvent} (hb : s.busy = true)
    (hm : s.meanwhile = e :: rest) : step s = busyEvent e { s with meanwhile := rest } := by
  rw [step_busy hb, busyStep, hm]

theorem runCommand_of_decode {s : State} {i : Instr} (h : decode s.cmd = .ok i) :
    runCommand s = exec i s := by
  rw [runCommand, h]

/-! ### The registers (R21, R22) -/

theorem State.readReg_absent {n : Nat} (h : 15 ≤ n) (s : State) : s.readReg n = 0 := by
  obtain ⟨k, rfl⟩ := Nat.exists_eq_add_of_le' h
  rfl

theorem State.writeReg_absent {n : Nat} (h : 15 ≤ n) (v : Nat) (s : State) :
    s.writeReg n v = s := by
  obtain ⟨k, rfl⟩ := Nat.exists_eq_add_of_le' h
  rfl

theorem hostAccess_wrReg {n v : Nat} (h : 15 ≤ n ∨ v < 2 ^ regWidth n) (s : State) :
    hostAccess (.wrReg n v) s = .next (s.writeReg n v) :=
  if_pos h

/-! ### The obligations -/

/-- Settles O3: placing a word is an issue, and the word of a command decodes to it. -/
theorem stepExecutesIssuedCommand : Obligations.StepExecutesIssuedCommand := by
  have hstep {s : State} {i : Instr} (hb : s.busy = true) (hm : s.meanwhile = [])
      (hi : decode s.cmd = .ok i) : step s = exec i s :=
    (step_busy_nil hb hm).trans (runCommand_of_decode hi)
  refine ⟨fun s i hb hm hi => hstep hb hm hi, fun s i nbits => ?_⟩
  rw [State.withFetchWord, State.placeWord, BitVec.ofNat_toNat, BitVec.setWidth_eq]
  exact hstep (busy_issue _ _ s) rfl (decode_encode i)

/-- Settles O4: a CMD write is an issue, and every 8-bit word fits CMD. -/
theorem cmdWriteIssuesCommand : Obligations.CmdWriteIssuesCommand := by
  intro s w rest m hb
  refine ⟨fun hh => ?_, fun hh => step_idle_cons hb hh⟩
  rw [step_idle_cons hb hh, hostEvent, hostAccess_wrReg (.inr w.isLt), State.writeReg,
    BitVec.ofNat_toNat, BitVec.setWidth_eq]
  rfl

/-- Settles O56: the value fits, and the write is the row of its register. -/
theorem hostWritesOneRegister : Obligations.HostWritesOneRegister := by
  intro s rest n v hb hh
  have hwrite (hv : 15 ≤ n ∨ v < 2 ^ regWidth n) :
      step s = .next (State.writeReg { s with host := rest } n v) :=
    (step_idle_cons hb hh).trans (hostAccess_wrReg hv _)
  iterate 8 refine ⟨by rintro rfl hv; exact hwrite (.inr hv), ?_⟩
  refine ⟨fun hn hv => ?_, fun hn hv => ?_, fun hn => ?_⟩
  · simp only [List.mem_cons, List.not_mem_nil, or_false] at hn
    rcases hn with rfl | rfl | rfl | rfl <;> exact hwrite (.inr hv)
  · simp only [List.mem_cons, List.not_mem_nil, or_false] at hn
    rcases hn with rfl | rfl <;> exact hwrite (.inr hv)
  · rw [hwrite (.inl hn), State.writeReg_absent hn]

/-- A bit at the width of a host read (R9). -/
theorem setWidth_ofBool (b : Bool) : (BitVec.ofBool b).setWidth 32 = if b then 1 else 0 := by
  cases b <;> rfl

/-- Settles O57: the index is in range, so the access answers the value. -/
theorem hostReadsHaveNoSideEffect : Obligations.HostReadsHaveNoSideEffect := by
  intro s rest hb
  refine ⟨fun n hh => ⟨s.readReg n, step_idle_cons hb hh, ?_⟩, fun i hi hh => ?_, fun i hi hh => ?_,
    fun i hi hh => ?_, fun x y hx hy hh => ?_⟩
  · iterate 15 refine ⟨by rintro rfl; rfl, ?_⟩
    exact fun hn => State.readReg_absent hn s
  · exact (step_idle_cons hb hh).trans (if_pos hi)
  · rw [← setWidth_ofBool]
    exact (step_idle_cons hb hh).trans (if_pos hi)
  · exact (step_idle_cons hb hh).trans (if_pos hi)
  · rw [← setWidth_ofBool]
    exact (step_idle_cons hb hh).trans (if_pos ⟨hx, hy⟩)

/-- Settles O58, by the read-after-write rules of buffers and grid. -/
theorem hostWritesOneEntry : Obligations.HostWritesOneEntry := by
  intro s rest hb
  refine ⟨fun i x hi hh => ?_, fun i b hi hh => ?_, fun x y b hx hy hh => ?_⟩
  · exact ⟨_, (step_idle_cons hb hh).trans (if_pos hi), rfl, fun j => Buf.read_write _ _ _ _ _⟩
  · exact ⟨_, (step_idle_cons hb hh).trans (if_pos hi), rfl, fun j => Buf.read_write _ _ _ _ _⟩
  · exact ⟨_, (step_idle_cons hb hh).trans (if_pos ⟨hx, hy⟩), rfl,
      fun px py hpx => Grid.get_set _ (hx.trans s.gridW.isLt) hpx b⟩

/-- Settles O59: the event is the access, and only a STATUS read passes its check. -/
theorem busyHostReadsStatusOnly : Obligations.BusyHostReadsStatusOnly := by
  intro s rest a hb hm
  rw [step_busy_cons hb hm]
  exact ⟨fun ha => if_pos ha, fun ha => if_neg ha⟩

/-! ### Only the host stops the machine -/

/-- A host access that the typed interface can present, and whose pixel is on the grid, is made. -/
theorem hostAccess_next {a : HostAccess} {s : State} (hwf : a.wf Config.params.bsMax = true)
    (hgrid : a.onGrid s = true) : ∃ t, hostAccess a s = .next t := by
  cases a with
  | wrReg n v => exact ⟨_, hostAccess_wrReg (by simpa [HostAccess.wf] using hwf) s⟩
  | rdReg n => exact ⟨_, rfl⟩
  | wrIn i c | rdIn i | wrBs i b | rdBs i | wrOut i c | rdOut i =>
    exact ⟨_, if_pos (of_decide_eq_true hwf)⟩
  | setPix x y b | getPix x y =>
    exact ⟨_, if_pos (by simpa [HostAccess.onGrid] using hgrid)⟩
  | newGrid => exact ⟨_, rfl⟩

theorem runCommand_next (s : State) : ∃ t, runCommand s = .next t := by
  rcases runCommand_cases s with ⟨i, -, he⟩ | ⟨r, -, he⟩
  · obtain ⟨t, ht, -⟩ := everyCommandCompletes i s
    exact ⟨t, he.trans ht⟩
  · exact ⟨_, he⟩

/-- Settles O10, by the four things a step can be: of these only an access of the host can fail. -/
theorem onlyTheHostStopsTheMachine : Obligations.OnlyTheHostStopsTheMachine := by
  intro s
  rcases step_cases s with ⟨-, -, he⟩ | ⟨e, rest, hb, hm, he⟩ | ⟨-, -, he⟩ | ⟨e, rest, hb, hh, he⟩ <;>
    rw [he]
  · exact .inl (runCommand_next s)
  · cases e with
    | access a =>
      by_cases ha : a = .rdReg 1
      · exact .inl ⟨_, if_pos ha⟩
      · exact .inr (.inl ⟨hb, a, rest, hm, ha⟩)
    | hardReset => exact .inl ⟨_, rfl⟩
  · exact .inl ⟨s, rfl⟩
  · cases e with
    | access a =>
      cases hwf : a.wf Config.params.bsMax with
      | false => exact .inr (.inr ⟨hb, a, rest, hh, .inl hwf⟩)
      | true =>
        cases hgrid : a.onGrid s with
        | false => exact .inr (.inr ⟨hb, a, rest, hh, .inr hgrid⟩)
        | true => exact .inl (hostAccess_next hwf hgrid)
    | issue w m => exact .inl ⟨_, rfl⟩
    | hardReset => exact .inl ⟨_, rfl⟩

end Sys2Proof.Machine
end

section
/-! The resets: the command RST (47_pipeline_and_system.md R229) and the hardware reset
(70_reset_and_hazards.md R280), which abandons the command it meets. An abandoned drawing leaves
every pixel that none of its modules covers. -/

namespace Sys2Proof.Machine

/-! ### The registers -/

/-- With CMD and STATUS 0 and the other registers at their reset values, every register reads 0. -/
theorem State.readReg_eq_zero {s : State} (hregs : s.clearRegs = s) (hcmd : s.cmd = 0)
    (hstatus : s.status = 0) (n : Nat) : s.readReg n = 0 := by
  rw [← hregs]
  unfold State.readReg
  split <;> simp [hcmd, hstatus]

theorem State.readReg_hardReset (s : State) (n : Nat) : s.hardReset.readReg n = 0 :=
  State.readReg_eq_zero rfl rfl rfl n

@[simp] theorem busy_hardReset (s : State) : s.hardReset.busy = false := by
  show (0 : BitVec 8).getLsbD 0 = false
  decide

theorem State.pix_hardReset_idle {s : State} (hb : s.busy = false) : s.hardReset.pix = s.pix := by
  simp [State.hardReset, hb]

theorem State.pix_hardReset_busy {s : State} (hb : s.busy = true) :
    s.hardReset.pix = abandonedPix Config.params s := by
  simp [State.hardReset, hb]

/-! ### The grid under an abandoned command -/

/-- No command but the four that draw touches the grid (R21). -/
theorem abandonedPix_of_not_drawing {P : Params} {s : State}
    (h : s.cmd ∉ [(0x07 : Byte), 0x08, 0x09, 0x0A]) : abandonedPix P s = s.pix := by
  unfold abandonedPix
  cases hd : decode s.cmd with
  | error r => rfl
  | ok i =>
    cases i with
    | nop | sel t | enc | fin | ecc | dec | sym t | rst => rfl
    | drf | dra | drt | asm =>
      rw [← encode_of_decode hd] at h
      exact absurd (by decide) h

/-- A write list leaves the pixels it does not name (R185). -/
theorem Grid.get_perform_of_not_written {g : Grid} {ws : List PixWrite}
    (hws : ∀ p ∈ ws, p.x.toNat < 2 ^ 32) {px py : Nat} (hpx : px < 2 ^ 32)
    (h : ∀ p ∈ ws, ¬(p.x.toNat = px ∧ p.y.toNat = py)) :
    (g.perform ws).get px py = g.get px py := by
  have hnone : ws.reverse.find? (fun p => decide (p.x.toNat = px) && decide (p.y.toNat = py)) =
      none := List.find?_eq_none.2 fun p hp hhit => h p (List.mem_reverse.1 hp) (by simpa using hhit)
  rw [Grid.get_perform g ws hws hpx, hnone]
  rfl

theorem not_covers_of_pixelColour_none {ms : List DrawnModule} {S B px py : Nat}
    (h : pixelColour ms S B px py = none) : ∀ m ∈ ms, ¬m.Covers S B px py := by
  intro m hm hc
  have hnone := List.find?_eq_none.1 (Option.map_eq_none_iff.1 h) m (List.mem_reverse.2 hm)
  exact hnone (by simpa only [← Bool.decide_and, decide_eq_true_eq] using hc)

theorem drawnWrites_ok_inv {P : Params} {s : State} {ms : Nat → List DrawnModule}
    {ws : List PixWrite} (h : drawnWrites P s ms = .ok ws) :
    s.Drawable ∧ ws = writeList P s.scale.toNat s.border.toNat (ms s.side) ∧
      ∀ m ∈ ms s.side, m.Fits s.scale.toNat s.border.toNat s.gridW.toNat s.gridH.toNat := by
  rcases drawnWrites_cases P s ms with ⟨c, -, he⟩ | ⟨n, ws', hn, hws, ⟨hall, he⟩ | ⟨-, he⟩⟩ <;>
    rw [he] at h <;> cases h
  obtain ⟨hs, rfl⟩ := checkParams_ok_iff.1 hn
  exact ⟨hs, hws, (writeList_inside_iff hs.scale_ne_zero _).1 (hws ▸ hall)⟩

/-- An abandoned drawing leaves every pixel that none of its modules covers (R280, R185). -/
theorem get_abandonWrites_of_uncovered {P : Params} {s : State} {ms : Nat → List DrawnModule}
    {px py : Nat} (hpx : px < 2 ^ 32)
    (h : pixelColour (ms s.side) s.scale.toNat s.border.toNat px py = none) :
    (abandonWrites s (drawnWrites P s ms)).get px py = s.pix.get px py := by
  cases hw : drawnWrites P s ms with
  | error c => rfl
  | ok ws =>
    have hcoords := drawnWrites_ok_coords hw
    obtain ⟨hs, rfl, hfit⟩ := drawnWrites_ok_inv hw
    refine Grid.get_perform_of_not_written ?_ hpx ?_ <;> intro p hp <;>
      obtain ⟨q, hq, rfl⟩ := List.mem_map.1 hp
    · exact (hcoords q hq).1
    · intro hhit
      obtain ⟨m, hm, hqm⟩ := List.mem_flatMap.1 hq
      exact not_covers_of_pixelColour_none h m hm
        ((exists_write_iff_covers hs.scale_ne_zero (hfit m hm) px py).1 ⟨q, hqm, hhit⟩)

/-- DRF, DRA and DRT are abandoned alike, each with its own modules. -/
theorem get_abandonedPix_of_uncovered {i : Instr} (hi : i ∈ [Instr.drf, .dra, .drt]) {s : State}
    (hcmd : s.cmd = encode i) {px py : Nat} (hpx : px < 2 ^ 32)
    (h : pixelColour (s.modules i) s.scale.toNat s.border.toNat px py = none) :
    (abandonedPix Config.params s).get px py = s.pix.get px py := by
  have habandoned : abandonedPix Config.params s = abandonWrites s
      (drawnWrites Config.params s (patternModules Config.params s.version.toNat i)) := by
    rw [abandonedPix, hcmd, decode_encode]
    simp only [List.mem_cons, List.not_mem_nil, or_false] at hi
    rcases hi with rfl | rfl | rfl <;> rfl
  rw [habandoned]
  exact get_abandonWrites_of_uncovered hpx h

/-! ### The obligations -/

/-- Settles O52: the reset state has clear registers and no listed entry. -/
theorem resetClearsTheRegisters : Obligations.ResetClearsTheRegisters :=
  ⟨State.readReg_eq_zero rfl rfl rfl, rfl, rfl, rfl, rfl⟩

/-- Settles O12: RST completes on the state with clear registers and forgotten buffers. -/
theorem rstRestoresTheRegisters : Obligations.RstRestoresTheRegisters := by
  refine ⟨decode_encode .rst, fun s => ⟨s.forgetBuffers.clearRegs.complete,
    exec_eq_conclude .rst s, ?_⟩⟩
  have hfree (i : Nat) : s.forgetBuffers.clearRegs.complete.readIn i = Config.freeIn s.free i ∧
      s.forgetBuffers.clearRegs.complete.readBs i = Config.freeBs s.free i ∧
      s.forgetBuffers.clearRegs.complete.readOut i = Config.freeOut s.free i := ⟨rfl, rfl, rfl⟩
  simp [hfree, statusDone, statusWord]

/-- Settles O53: a reset clears the registers whatever it meets, and what it makes of the grid is
said by the command it abandons. -/
theorem hardwareResetClearsTheRegisters : Obligations.HardwareResetClearsTheRegisters := by
  refine ⟨fun s rest hb hh => ⟨_, step_idle_cons hb hh, State.readReg_hardReset _,
    State.pix_hardReset_idle hb, rfl, rfl⟩, fun s rest hb hm => ?_⟩
  have hpix : (State.hardReset { s with meanwhile := rest }).pix =
      abandonedPix Config.params { s with meanwhile := rest } := State.pix_hardReset_busy hb
  refine ⟨_, step_busy_cons hb hm, State.readReg_hardReset _, busy_hardReset _, rfl, rfl, ?_⟩
  rw [hpix]
  exact ⟨abandonedPix_of_not_drawing, fun px py hpx =>
    ⟨fun hcmd => get_abandonedPix_of_uncovered (i := .drf) (by decide) hcmd hpx,
    fun hcmd => get_abandonedPix_of_uncovered (i := .dra) (by decide) hcmd hpx,
    fun hcmd => get_abandonedPix_of_uncovered (i := .drt) (by decide) hcmd hpx⟩⟩

end Sys2Proof.Machine
end
